-- ==== Sys2Proof/Word.lean ====
section
/-! DEFINITION. The words of the protocol engine: the widths spec/10_state.md R13 gives, and a record's type
(spec/20_memory.md R32). Notation: spec/00_scope.md R7 (every value is unsigned). -/

namespace Sys2Proof

/-- An inbound or outbound symbol (spec/00_scope.md R6: "8-bit byte"). -/
abbrev Byte := BitVec 8

/-- A 16-bit value: the channel id, a CRC, a record's index and offset fields (spec/00_scope.md R6, R7). -/
abbrev Word16 := BitVec 16

/-- A 24-bit segment id (spec/00_scope.md R6). -/
abbrev SegId := BitVec 24

/-- A record: a byte sequence laid out as spec/20_memory.md R32. -/
abbrev Record := List Byte

end Sys2Proof
end

