-- ==== Sys2Proof/Syntax.lean ====
section
/-! DEFINITION. The events (spec/30_encoding.md R44), the point of control (spec/10_state.md R15, R24), the columns of the
decode table (spec/30_encoding.md R45), and `Instr`, one constructor per row of spec/opcode_table.json. -/

namespace Sys2Proof

/-- The protocol state `state` (spec/10_state.md R15). -/
inductive ProtoState where
  | idle
  | channelRequest
  | segmentRequest
  | setStatusRequest
  | getStatusRequest
  | sendSegment
  deriving DecidableEq, Repr

/-- The point of control, the pair (`state`, `substep`) (spec/10_state.md R24). -/
structure Point where
  state   : ProtoState
  substep : BitVec 8
  deriving DecidableEq, Repr

/-- What the environment can deliver, one per step (spec/30_encoding.md R44). -/
inductive Event where
  | rx (b : Byte)
  | tick
  | reset
  deriving DecidableEq, Repr

/-- The condition column of the TICK rows (spec/43_pacer.md R90, R91, R92), with the two conditions for which the table
has no row. -/
inductive PacerPhase where
  | idle       -- `pz.active = 0`
  | sending    -- `pz.active = 1` and `pz.cursor < len(cache.recs[pz.idx])`
  | ended      -- `pz.active = 1` and `pz.cursor = len(cache.recs[pz.idx])`
  | noRecord   -- `pz.active = 1` and `cache.recs[pz.idx]` does not exist: no row
  | pastEnd    -- `pz.active = 1` and `pz.cursor` beyond the record: no row
  deriving DecidableEq, Repr

/-- One entry of the decode table: an event with the columns that give it its meaning (spec/30_encoding.md R44, R45). -/
inductive Key where
  | rx (p : Point) (b : Byte)
  | tick (ph : PacerPhase)
  | reset
  deriving DecidableEq, Repr

/-- Why a key has no row in the decode table. -/
inductive DecodeError where
  /-- a (`state`, `substep`) pair outside spec/10_state.md R17 -/
  | illegalPoint (p : Point)
  /-- an active Pacer whose record does not exist -/
  | pacerWithoutRecord
  /-- an active Pacer whose cursor is beyond its record's end -/
  | pacerPastEnd
  deriving DecidableEq, Repr

/-- The instructions: one constructor per row of spec/opcode_table.json, in its order. A row whose byte is not fixed by the
table carries the byte. -/
inductive Instr where
  | chan                       -- CHAN           R55
  | segreq                     -- SEGREQ         R56
  | cmd83                      -- CMD83          R57
  | getstat                    -- GETSTAT        R58
  | setstat                    -- SETSTAT        R59
  | ignore (b : Byte)          -- IGNORE         R60
  | chanA0 (b : Byte)          -- CHAN_A0        R62
  | chanA1 (b : Byte)          -- CHAN_A1        R62
  | setstatD0 (b : Byte)       -- SETSTAT_D0     R63
  | setstatD1 (b : Byte)       -- SETSTAT_D1     R63
  | getstatQ01                 -- GETSTAT_Q01    R64
  | getstatQother (b : Byte)   -- GETSTAT_QOTHER R64
  | segreqPkt (b : Byte)       -- SEGREQ_PKT     R65
  | segreqId0 (b : Byte)       -- SEGREQ_ID0     R66
  | segreqId1 (b : Byte)       -- SEGREQ_ID1     R66
  | segreqId2 (b : Byte)       -- SEGREQ_ID2     R67
  | hs1                        -- HS1            R69
  | hs1Abort (b : Byte)        -- HS1_ABORT      R69
  | hs2                        -- HS2            R70
  | hs2Abort (b : Byte)        -- HS2_ABORT      R70
  | tickIdle                   -- TICK_IDLE      R90
  | tickData                   -- TICK_DATA      R91
  | tickEnd                    -- TICK_END       R92
  | reset                      -- RESET          R110
  deriving DecidableEq, Repr

end Sys2Proof
end

