-- ==== Sys2Proof/WellFormed.lean ====
section
/-! DEFINITION. Which instructions are rows of the decode table: the `excludes` columns of spec/opcode_table.json
(spec/30_encoding.md R45 "any other value"), and which points of control are legal (spec/10_state.md R17). -/

namespace Sys2Proof

/-- The five command codes (spec/30_encoding.md R45, R48). -/
def isCommand (b : Byte) : Bool :=
  b == 0x81 || b == 0x82 || b == 0x83 || b == 0x84 || b == 0x85

/-- An instruction is well formed when its byte is one its row admits. -/
def Instr.wellFormed : Instr → Bool
  | .ignore b => !isCommand b
  | .getstatQother b => b != 0x01
  | .hs1Abort b => b != 0x10
  | .hs2Abort b => b != 0x06
  | .chan => true
  | .segreq => true
  | .cmd83 => true
  | .getstat => true
  | .setstat => true
  | .chanA0 _ => true
  | .chanA1 _ => true
  | .setstatD0 _ => true
  | .setstatD1 _ => true
  | .getstatQ01 => true
  | .segreqPkt _ => true
  | .segreqId0 _ => true
  | .segreqId1 _ => true
  | .segreqId2 _ => true
  | .hs1 => true
  | .hs2 => true
  | .tickIdle => true
  | .tickData => true
  | .tickEnd => true
  | .reset => true

/-- The greatest legal `substep` of each state (spec/10_state.md R17). -/
def ProtoState.lastSubstep : ProtoState → Nat
  | .idle => 0
  | .channelRequest => 1
  | .segmentRequest => 3
  | .setStatusRequest => 1
  | .getStatusRequest => 0
  | .sendSegment => 1

/-- A legal point of control (spec/10_state.md R17). -/
def Point.legal (p : Point) : Bool := p.substep.toNat ≤ p.state.lastSubstep

/-- A key for which the decode table has a row: a legal point, or a Pacer condition of R90 to R92. -/
def Key.legal : Key → Bool
  | .rx p _ => p.legal
  | .tick .idle => true
  | .tick .sending => true
  | .tick .ended => true
  | .tick .noRecord => false
  | .tick .pastEnd => false
  | .reset => true

end Sys2Proof
end

