-- ==== Sys2Proof/Decode.lean ====
section
/-! DEFINITION. The decode function of spec/30_encoding.md R45, total on every key and rejecting by name, and the encoder
written from the same table. `decodeTableWord` reads a row of spec/opcode_table.json from its bits alone. -/

namespace Sys2Proof

/-- A command byte in `Idle` (spec/30_encoding.md R45, R48). -/
def decodeCommand (b : Byte) : Instr :=
  if b = 0x85 then .chan
  else if b = 0x84 then .segreq
  else if b = 0x83 then .cmd83
  else if b = 0x82 then .getstat
  else if b = 0x81 then .setstat
  else .ignore b

/-- An inbound byte at a point of control (spec/30_encoding.md R45); a point outside spec/10_state.md R17 is rejected by name. -/
def decodeRx (p : Point) (b : Byte) : Except DecodeError Instr :=
  match p.state with
  | .idle =>
    if p.substep = 0 then .ok (decodeCommand b) else .error (.illegalPoint p)
  | .channelRequest =>
    if p.substep = 0 then .ok (.chanA0 b)
    else if p.substep = 1 then .ok (.chanA1 b)
    else .error (.illegalPoint p)
  | .setStatusRequest =>
    if p.substep = 0 then .ok (.setstatD0 b)
    else if p.substep = 1 then .ok (.setstatD1 b)
    else .error (.illegalPoint p)
  | .getStatusRequest =>
    if p.substep = 0 then .ok (if b = 0x01 then .getstatQ01 else .getstatQother b)
    else .error (.illegalPoint p)
  | .segmentRequest =>
    if p.substep = 0 then .ok (.segreqPkt b)
    else if p.substep = 1 then .ok (.segreqId0 b)
    else if p.substep = 2 then .ok (.segreqId1 b)
    else if p.substep = 3 then .ok (.segreqId2 b)
    else .error (.illegalPoint p)
  | .sendSegment =>
    if p.substep = 0 then .ok (if b = 0x10 then .hs1 else .hs1Abort b)
    else if p.substep = 1 then .ok (if b = 0x06 then .hs2 else .hs2Abort b)
    else .error (.illegalPoint p)

/-- A tick in a Pacer condition (spec/43_pacer.md R90, R91, R92); a condition without a row is rejected by name. -/
def decodeTick : PacerPhase → Except DecodeError Instr
  | .idle => .ok .tickIdle
  | .sending => .ok .tickData
  | .ended => .ok .tickEnd
  | .noRecord => .error .pacerWithoutRecord
  | .pastEnd => .error .pacerPastEnd

/-- The decode function (spec/30_encoding.md R44, R45). -/
def decode : Key → Except DecodeError Instr
  | .rx p b => decodeRx p b
  | .tick ph => decodeTick ph
  | .reset => .ok .reset

/-- The encoder: the row of spec/30_encoding.md R45 (or the TICK or RESET row) that an instruction stands for. -/
def encode : Instr → Key
  | .chan => .rx ⟨.idle, 0⟩ 0x85
  | .segreq => .rx ⟨.idle, 0⟩ 0x84
  | .cmd83 => .rx ⟨.idle, 0⟩ 0x83
  | .getstat => .rx ⟨.idle, 0⟩ 0x82
  | .setstat => .rx ⟨.idle, 0⟩ 0x81
  | .ignore b => .rx ⟨.idle, 0⟩ b
  | .chanA0 b => .rx ⟨.channelRequest, 0⟩ b
  | .chanA1 b => .rx ⟨.channelRequest, 1⟩ b
  | .setstatD0 b => .rx ⟨.setStatusRequest, 0⟩ b
  | .setstatD1 b => .rx ⟨.setStatusRequest, 1⟩ b
  | .getstatQ01 => .rx ⟨.getStatusRequest, 0⟩ 0x01
  | .getstatQother b => .rx ⟨.getStatusRequest, 0⟩ b
  | .segreqPkt b => .rx ⟨.segmentRequest, 0⟩ b
  | .segreqId0 b => .rx ⟨.segmentRequest, 1⟩ b
  | .segreqId1 b => .rx ⟨.segmentRequest, 2⟩ b
  | .segreqId2 b => .rx ⟨.segmentRequest, 3⟩ b
  | .hs1 => .rx ⟨.sendSegment, 0⟩ 0x10
  | .hs1Abort b => .rx ⟨.sendSegment, 0⟩ b
  | .hs2 => .rx ⟨.sendSegment, 1⟩ 0x06
  | .hs2Abort b => .rx ⟨.sendSegment, 1⟩ b
  | .tickIdle => .tick .idle
  | .tickData => .tick .sending
  | .tickEnd => .tick .ended
  | .reset => .reset

/-- The point of control of the table row that a byte's bits name (log entry 15): the rows with a fixed byte outside `Idle` are
GETSTAT_Q01 (0x01), HS1 (0x10) and HS2 (0x06); every other byte is read in `Idle`, as right after reset. -/
def tablePoint (b : Byte) : Point :=
  if b = 0x01 then ⟨.getStatusRequest, 0⟩
  else if b = 0x10 then ⟨.sendSegment, 0⟩
  else if b = 0x06 then ⟨.sendSegment, 1⟩
  else ⟨.idle, 0⟩

/-- The key of a word numbered as spec/opcode_table.json numbers it: a row without bits is a tick (of an inactive Pacer, as right
after reset), a row of one byte an inbound byte at `tablePoint`; nothing is wider than one byte (spec/30_encoding.md R44). -/
def tableKey (nbits w : Nat) : Option Key :=
  if nbits = 0 then some (.tick .idle)
  else if nbits ≤ 8 ∧ w < 256 then
    some (.rx (tablePoint (BitVec.ofNat 8 w)) (BitVec.ofNat 8 w))
  else none

/-- The instruction the decoder reads from a table word (log entry 15). -/
def decodeTableWord (nbits w : Nat) : Option Instr :=
  match tableKey nbits w with
  | none => none
  | some k =>
    match decode k with
    | .ok i => some i
    | .error _ => none

end Sys2Proof
end

