-- ==== Sys2Proof/Config.lean ====
section
/-! DEFINITION. What is fixed for a run and what the environment answers inside a step: the parameters of
spec/00_scope.md R6, the types of the two oracles' answers (spec/42_pipeline.md R74, R78), and the free values, which
have no body. -/

namespace Sys2Proof

/-- `HEADER_LAYOUT`: the order of the fields in a record's header (spec/20_memory.md R32). -/
inductive HeaderLayout where
  | nabu   -- the spec's default (decision D6)
  | doc6   -- the source's own §6 order, the named alternative
  deriving DecidableEq, Repr

/-- `CRC_TABLE`: 256 entries of 16 bits (spec/42_pipeline.md R86). -/
abbrev CrcTable := Vector Word16 256

/-- The parameters of the step (spec/10_state.md R14); no step writes them. -/
structure Params where
  /-- `PROMPT_FOR_CHANNEL` (spec/10_state.md R21). -/
  promptForChannel : Bool
  /-- `HEADER_LAYOUT` (spec/20_memory.md R32). -/
  headerLayout : HeaderLayout
  /-- `CRC_TABLE` (spec/42_pipeline.md R86). -/
  crcTable : CrcTable
  deriving DecidableEq, Repr

/-- Which encoder path a backend success takes: the tag the backend returns with its bytes (spec/42_pipeline.md R76). -/
inductive PathKind where
  | raw
  | container
  deriving DecidableEq, Repr, Inhabited

/-- What `Backend(id)` answers (spec/42_pipeline.md R74). -/
inductive BackendResult where
  | ok (kind : PathKind) (bytes : List Byte)
  | notFound
  | tooLarge
  | ioError
  deriving DecidableEq, Repr, Inhabited

/-- The six bytes `Now()` answers (spec/42_pipeline.md R78); how the environment numbers them (`RTC_CONVENTION`) is open. -/
structure ClockTime where
  weekday : Byte
  month   : Byte
  day     : Byte
  hour    : Byte
  minute  : Byte
  second  : Byte
  deriving DecidableEq, Repr, Inhabited

/-- The failure kinds of the pipeline (spec/60_exceptions.md R95). -/
inductive FailKind where
  | notFound
  | tooLarge
  | ioError
  | malformedRecord
  deriving DecidableEq, Repr

/-- FREE VALUE (log entry 3): the answer to the query number `n` for the id `id` when the environment has lined up none.
The spec: "any answer may come for any id at any query" (spec/42_pipeline.md R74). -/
opaque Config.freeBackend (n : Nat) (id : SegId) : BackendResult

/-- FREE VALUE (log entry 4): the answer to the clock reading number `n` when the environment has lined up none
(spec/42_pipeline.md R78: "the answer is a free input of the step"). -/
opaque Config.freeClock (n : Nat) : ClockTime

/-- OPEN CONFIGURATION (log entry 5): `PROMPT_FOR_CHANNEL` of the machine that `State.reset` describes. The spec fixes no value
(spec/10_state.md R21, spec/70_reset_and_hazards.md R113). -/
opaque Config.promptForChannel : Bool

end Sys2Proof
end

