-- ==== Sys2Proof/Machine/Constants.lean ====
section
/-! DEFINITION. The constants of the block: the parameters of spec/00_scope.md R6, the reply bytes of spec/30_encoding.md R49,
and the codes of the states and failure kinds (spec/10_state.md R15, spec/60_exceptions.md R95). -/

namespace Sys2Proof.Machine

/-- `CLOCK_ID` (R6). -/
def clockId : SegId := 0x7FFFFF

/-- `MAX_PAYLOAD` (R6). -/
abbrev maxPayload : Nat := 991

/-- `HDR_LEN` (R6; conflict C1). -/
abbrev headerLength : Nat := 16

/-- The CRC's length in bytes (R6). -/
abbrev crcLength : Nat := 2

/-- `MAX_REC` (R6, R34). -/
abbrev maxRecord : Nat := 1009

/-- The shortest record of the cache, a header and a CRC (R34, R83). -/
abbrev minRecord : Nat := headerLength + crcLength

/-- `MAX_SEG` (R6, R75). -/
abbrev maxSegment : Nat := 65536

/-- `DLE`, the escape byte (R6, R11). -/
def dle : Byte := 0x10

/-- ACK (R49). -/
def ackBytes : List Byte := [0x10, 0x06]

/-- DONE (R49). -/
def doneByte : Byte := 0xE4

/-- SEG_OK (R49). -/
def segOkByte : Byte := 0x91

/-- SEG_FAIL (R49). -/
def segFailByte : Byte := 0x90

/-- STATUS_PROMPT (R49). -/
def statusPromptByte : Byte := 0x9F

/-- STATUS_NOPROMPT (R49). -/
def statusNoPromptByte : Byte := 0x1F

/-- TERM, the terminator (R49, R11). -/
def termBytes : List Byte := [0x10, 0xE1]

/-- The 3-bit code of a protocol state (spec/10_state.md R15); no output shows it. -/
def stateCode : ProtoState → BitVec 3
  | .idle => 0
  | .channelRequest => 1
  | .segmentRequest => 2
  | .setStatusRequest => 3
  | .getStatusRequest => 4
  | .sendSegment => 5

/-- The code of a failure kind (spec/60_exceptions.md R95); no output shows it. -/
def failCode : FailKind → Nat
  | .notFound => 1
  | .tooLarge => 2
  | .ioError => 3
  | .malformedRecord => 4

end Sys2Proof.Machine
end

