-- ==== Sys2Proof/Machine/Crc.lean ====
section
/-! DEFINITION. CRC-16 (spec/42_pipeline.md R86, R87). -/

namespace Sys2Proof.Machine

/-- One of the eight rounds of a table entry's computation (R86). -/
def crcRound (c : Word16) : Word16 :=
  if c.getLsbD 15 then (c <<< 1) ^^^ 0x1021 else c <<< 1

/-- Entry `i` of the table of polynomial 0x1021 (R86): eight rounds from `i << 8`. -/
def crcTableEntry (i : Byte) : Word16 :=
  crcRound (crcRound (crcRound (crcRound
    (crcRound (crcRound (crcRound (crcRound ((i.setWidth 16) <<< 8))))))))

/-- The default `CRC_TABLE` (R86; log entry 7). -/
def defaultCrcTable : CrcTable :=
  ⟨⟨(List.range 256).map fun i => crcTableEntry (BitVec.ofNat 8 i)⟩, by simp⟩

/-- One step of the running CRC (R87); the `& 0xFF` of the rule is the truncation to the 8-bit index. -/
def crcStep (table : CrcTable) (crc : Word16) (b : Byte) : Word16 :=
  let index : Byte := (crc >>> 8).setWidth 8 ^^^ b
  (crc <<< 8) ^^^ table[index.toNat]'index.isLt

/-- `CRC16(m)` (R87): seed 0xFFFF, the bytes in ascending order, the result complemented. -/
def crc16 (table : CrcTable) (m : List Byte) : Word16 :=
  ~~~ (m.foldl (crcStep table) 0xFFFF)

end Sys2Proof.Machine
end

