-- ==== Sys2Proof/Machine/Flags.lean ====
section
/-! DEFINITION. The flag bits of the block: a record's type/flags byte (spec/20_memory.md R33) and the status byte of
`GetStatusRequest` (spec/41_argument_states.md R64). The block has no condition codes (spec/10_state.md R25). -/

namespace Sys2Proof.Machine

/-- The type/flags byte of record `k` of the raw path (R33, spec/42_pipeline.md R80). -/
def typeByte (k : Nat) (final : Bool) : Byte :=
  0x20 ||| (if k = 0 then 0x81 else 0) ||| (if final then 0x10 else 0)

/-- Bit 0x10 of a type byte, the final-record flag (R33, spec/42_pipeline.md R82). -/
def isFinalType (t : Byte) : Bool := t &&& 0x10 != 0

/-- The status byte (spec/41_argument_states.md R64). -/
def statusByte (promptForChannel : Bool) : Byte :=
  if promptForChannel then statusPromptByte else statusNoPromptByte

end Sys2Proof.Machine
end

