-- ==== Sys2Proof/Machine/Operands.lean ====
section
/-! DEFINITION. Operand assembly and splitting, byte by byte (spec/30_encoding.md R46; byte orders: spec/20_memory.md R35). -/

namespace Sys2Proof.Machine

/-- `v[7:0]` of a 16-bit value (spec/00_scope.md R7). -/
def lowByte (v : Word16) : Byte := v.extractLsb' 0 8

/-- `v[15:8]` of a 16-bit value. -/
def highByte (v : Word16) : Byte := v.extractLsb' 8 8

/-- `chan[7:0] <- b` (spec/41_argument_states.md R62). -/
def withLowByte (v : Word16) (b : Byte) : Word16 := highByte v ++ b

/-- `chan[15:8] <- b` (spec/41_argument_states.md R62). -/
def withHighByte (v : Word16) (b : Byte) : Word16 := b ++ lowByte v

/-- `seg[7:0] <- b` (spec/41_argument_states.md R66). -/
def withSegByte0 (v : SegId) (b : Byte) : SegId := v.extractLsb' 8 16 ++ b

/-- `seg[15:8] <- b` (spec/41_argument_states.md R66). -/
def withSegByte1 (v : SegId) (b : Byte) : SegId := v.extractLsb' 16 8 ++ b ++ v.extractLsb' 0 8

/-- `seg[23:16] <- b` (spec/41_argument_states.md R67). -/
def withSegByte2 (v : SegId) (b : Byte) : SegId := b ++ v.extractLsb' 0 16

/-- A segment id big-endian, as a record's header holds it (spec/20_memory.md R32, R35). -/
def segIdBytes (id : SegId) : List Byte :=
  [id.extractLsb' 16 8, id.extractLsb' 8 8, id.extractLsb' 0 8]

/-- A 16-bit value big-endian: the offset and CRC fields (spec/20_memory.md R35). -/
def bigEndian (v : Word16) : List Byte := [highByte v, lowByte v]

/-- A 16-bit value little-endian: the record index field (spec/20_memory.md R35). -/
def littleEndian (v : Word16) : List Byte := [lowByte v, highByte v]

/-- A container's block size, little-endian (spec/42_pipeline.md R82). -/
def blockSize (lo hi : Byte) : Nat := lo.toNat + 256 * hi.toNat

end Sys2Proof.Machine
end

