-- ==== Sys2Proof/Machine/Record.lean ====
section
/-! DEFINITION. Records and the Segment Encoder's three paths: raw (spec/42_pipeline.md R79, R80), container pass-through
(R82, R83, R84) and clock (R85). -/

namespace Sys2Proof.Machine

/-- The owner tag (spec/42_pipeline.md R80). -/
def ownerTag : List Byte := [0x01]

/-- The tier tag (R80). -/
def tierTag : List Byte := [0x7F, 0xFF, 0xFF, 0xFF]

/-- The capacity tag (R80). -/
def capacityTag : List Byte := [0x7F, 0x80]

/-- The 16 header bytes of record `k` at byte offset `o`, in either order of spec/20_memory.md R32. -/
def headerBytes (layout : HeaderLayout) (id : SegId) (k o : Nat) (t : Byte) : List Byte :=
  let index := BitVec.ofNat 16 k
  let offset := bigEndian (BitVec.ofNat 16 o)
  match layout with
  | .nabu =>
    segIdBytes id ++ [lowByte index] ++ ownerTag ++ tierTag ++ capacityTag ++ [t] ++ littleEndian index ++ offset
  | .doc6 =>
    segIdBytes id ++ ownerTag ++ tierTag ++ capacityTag ++ littleEndian index ++ [lowByte index] ++ [t] ++ offset

/-- Where a record holds its type byte (spec/20_memory.md R32). -/
def typeOffset : HeaderLayout → Nat
  | .nabu => 11
  | .doc6 => 13

/-- Bytes followed by their CRC, high byte first (spec/42_pipeline.md R80, R88). -/
def withCrc (table : CrcTable) (m : List Byte) : Record := m ++ bigEndian (crc16 table m)

/-- `RawRecord(id, k, o, chunk, final)` (R80). -/
def rawRecord (p : Params) (id : SegId) (k o : Nat) (chunk : List Byte) (final : Bool) : Record :=
  withCrc p.crcTable (headerBytes p.headerLayout id k o (typeByte k final) ++ chunk)

/-- `N = ceil(L / 991)` (R79). -/
def chunkCount (length : Nat) : Nat := (length + (maxPayload - 1)) / maxPayload

/-- Chunk `k`: `bytes[991*k .. min(991*k + 991, L) - 1]` (R79). -/
def chunk (bytes : List Byte) (k : Nat) : List Byte := (bytes.drop (maxPayload * k)).take maxPayload

/-- `RawRecords(id, bytes)` (R80). -/
def rawRecords (p : Params) (id : SegId) (bytes : List Byte) : List Record :=
  let n := chunkCount bytes.length
  (List.range n).map fun k => rawRecord p id k (maxPayload * k) (chunk bytes k) (k + 1 == n)

/-- Writes bytes into a record at ascending offsets (spec/20_memory.md R36). -/
def writeBytes (r : Record) (off : Nat) : List Byte → Record
  | [] => r
  | b :: bs => writeBytes (r.set off b) (off + 1) bs

/-- `Restamp(rec)` (R84): the last two bytes become the CRC of the bytes before them. -/
def restamp (table : CrcTable) (r : Record) : Record :=
  let body := r.length - crcLength
  writeBytes r body (bigEndian (crc16 table (r.take body)))

/-- Whether a record's type byte has bit 0x10 (R82). -/
def isFinalRecord (layout : HeaderLayout) (r : Record) : Bool :=
  match r[typeOffset layout]? with
  | some t => isFinalType t
  | none => false

/-- Whether a block size `s`, with `left` bytes after its prefix, is malformed (R83, in the rule's order). -/
def malformedSize (s left : Nat) : Bool :=
  maxRecord < s || s < minRecord || left < s

/-- `PassThrough(bytes)` (R82), in at most `fuel` blocks. -/
def passThroughFrom (p : Params) : Nat → List Byte → Except FailKind (List Record)
  | 0, _ => .ok []
  | _ + 1, [] => .ok []
  | _ + 1, [_] => .error .malformedRecord
  | fuel + 1, lo :: hi :: rest =>
    let s := blockSize lo hi
    if malformedSize s rest.length then .error .malformedRecord
    else
      let r := restamp p.crcTable (rest.take s)
      if isFinalRecord p.headerLayout r then .ok [r]
      else
        match passThroughFrom p fuel (rest.drop s) with
        | .ok recs => .ok (r :: recs)
        | .error k => .error k

/-- `PassThrough(bytes)` (R82). Every block takes at least two bytes, so `bytes.length` blocks are enough. -/
def passThrough (p : Params) (bytes : List Byte) : Except FailKind (List Record) :=
  passThroughFrom p bytes.length bytes

/-- A pass-through container of records, each preceded by its size, little-endian (spec/30_encoding.md R51): what `passThrough` reads. -/
def containerBytes (recs : List Record) : List Byte :=
  recs.flatMap fun r => littleEndian (BitVec.ofNat 16 r.length) ++ r

/-- The clock segment's nine payload bytes (R85, spec/30_encoding.md R52); `weekday+1` is taken mod 256. -/
def clockPayload (t : ClockTime) : List Byte :=
  [0x02, 0x02, t.weekday + 1, 0x54, t.month, t.day, t.hour, t.minute, t.second]

/-- `ClockRecords(t)` (R85). -/
def clockRecords (p : Params) (t : ClockTime) : List Record :=
  rawRecords p clockId (clockPayload t)

end Sys2Proof.Machine
end

