-- ==== Sys2Proof/Machine/State.lean ====
section
/-! DEFINITION. The machine's state (spec/10_state.md R13), its outputs, the environment's inputs, the reasons a step can stop,
and the state after reset (spec/70_reset_and_hazards.md R111). -/

namespace Sys2Proof.Machine

/-- The record store `cache.recs`: byte `off` of record `i` is at the address (`i`, `off`) (spec/20_memory.md R30, R31). -/
abbrev Memory := List Record

/-- The SegmentCache (spec/10_state.md R22); `cache.n` is the length of `recs`. -/
structure Cache where
  id   : Option SegId   -- `none` is the spec's NONE
  recs : Memory
  deriving DecidableEq, Repr

/-- The Pacer's registers (spec/10_state.md R23). -/
structure Pacer where
  active : Bool
  idx    : BitVec 8
  cursor : BitVec 11
  deriving DecidableEq, Repr

/-- The fault record of the model fault (spec/60_exceptions.md R99): the packet index and `cache.n`. -/
inductive FaultInfo where
  | packetIndexOutOfRange (pkt : BitVec 8) (n : Nat)
  deriving DecidableEq, Repr

/-- The state. The first block is the spec's own (spec/10_state.md R13); the second is the spec's output and the counters of the
oracles (log entry 2); the third the parameters, which no step writes (R14); the fourth the environment's inputs (log entries 1, 3, 4). -/
structure State where
  /-- the protocol state (R15) -/
  state : ProtoState
  /-- argument bytes consumed in `state` (R16, R17) -/
  substep : BitVec 8
  /-- pending channel id (R18) -/
  chan : Word16
  /-- pending packet index (R19) -/
  pkt : Byte
  /-- pending segment id (R20) -/
  seg : SegId
  /-- the SegmentCache (R22) -/
  cache : Cache
  /-- the Pacer (R23) -/
  pz : Pacer
  /-- the model fault, sticky (spec/60_exceptions.md R99, R100) -/
  fault : Option FaultInfo
  /-- the transmit stream, oldest byte first (spec/20_memory.md R39) -/
  tx : List Byte
  /-- the ids the backend was asked for, oldest first (spec/20_memory.md R38) -/
  queries : List SegId
  /-- how many times the clock was asked (spec/42_pipeline.md R78) -/
  clockReads : Nat
  /-- the parameters of the step (R14) -/
  params : Params
  /-- the events the environment has lined up, oldest first (spec/20_memory.md R40) -/
  inbox : List Event
  /-- the backend's answers lined up, oldest first (spec/42_pipeline.md R74) -/
  backendAnswers : List BackendResult
  /-- the clock's answers lined up, oldest first (spec/42_pipeline.md R78) -/
  clockAnswers : List ClockTime
  deriving DecidableEq, Repr

/-- Why the machine stops with a fault of the step itself. (The spec's own fault, `PacketIndexOutOfRange`, is no such stop: it is
the field `State.fault`, and the machine goes on to the states spec/60_exceptions.md R100 describes.) -/
inductive Fault where
  /-- Raised by TICK_DATA when byte `off` of record `idx` does not exist (spec/20_memory.md R31). Safe: no state that meets the
  invariant reaches it, and it stops the run. -/
  | recordByteAbsent (idx : BitVec 8) (off : Nat)
  deriving DecidableEq, Repr

/-- Why a step is refused. -/
inductive Refusal where
  /-- Raised by an arm of `exec` whose instruction has no meaning yet; no arm is left. Safe: it stops the run. -/
  | notModelled (mnemonic : String)
  /-- Raised by the step for an event whose point of control or Pacer condition has no row in the decode table
  (spec/30_encoding.md R45: "never reached, so the table needs no row for it"). Safe: it stops the run. -/
  | undecodable (reason : DecodeError)
  deriving DecidableEq, Repr

/-- The state after power-on reset (spec/70_reset_and_hazards.md R111), with nothing sent, asked or lined up, the spec's
default parameters (R32, R86) and the open configuration input (R21). -/
def State.reset : State where
  state := .idle
  substep := 0
  chan := 0
  pkt := 0
  seg := 0
  cache := { id := none, recs := [] }
  pz := { active := false, idx := 0, cursor := 0 }
  fault := none
  tx := []
  queries := []
  clockReads := 0
  params :=
    { promptForChannel := Config.promptForChannel
      headerLayout := .nabu
      crcTable := defaultCrcTable }
  inbox := []
  backendAnswers := []
  clockAnswers := []

end Sys2Proof.Machine
end

