-- ==== Sys2Proof/Machine/Ops.lean ====
section
/-! DEFINITION. The named operations over the record store, the registers, the transmit stream, the oracles and the event queue
(spec/00_scope.md R8), raising the model fault (spec/60_exceptions.md R99) and taking a failure (R103). -/

namespace Sys2Proof.Machine

/-! ### The record store (spec/20_memory.md R30, R31, R36) -/

/-- One byte of the record store, `MemRead(i, off, 1)`. This is the ONE place that says what an address that is not there reads as:
nothing (log entry 8). -/
def Memory.readByte (m : Memory) (i off : Nat) : Option Byte :=
  match m[i]? with
  | some r => r[off]?
  | none => none

/-- `MemRead(i, off, n)`: `n` one-byte reads at ascending offsets (R36). -/
def Memory.read (m : Memory) (i off : Nat) : Nat → Option (List Byte)
  | 0 => some []
  | n + 1 =>
    match m.readByte i off, Memory.read m i (off + 1) n with
    | some b, some bs => some (b :: bs)
    | _, _ => none

/-- `MemWrite(i, off, n, v)` (spec/00_scope.md R8): `n` one-byte writes at ascending offsets of an existing record. -/
def Memory.write (m : Memory) (i off : Nat) (v : List Byte) : Option Memory :=
  match m[i]? with
  | some r => if off + v.length ≤ r.length then some (m.set i (writeBytes r off v)) else none
  | none => none

/-- The form of the store: every record has 18 to 1009 bytes (spec/10_state.md R22, spec/20_memory.md R34). -/
def Memory.wf (m : Memory) : Bool :=
  m.all fun r => minRecord ≤ r.length && r.length ≤ maxRecord

/-! ### The registers and the transmit stream -/

/-- `emit` of each byte in order (spec/20_memory.md R39). -/
def State.emit (s : State) (bytes : List Byte) : State := { s with tx := s.tx ++ bytes }

/-- `state <- p`, which also writes `substep <- 0` (spec/10_state.md R16). -/
def State.enter (s : State) (p : ProtoState) : State := { s with state := p, substep := 0 }

/-- `substep <- substep + 1` (spec/41_argument_states.md R61). -/
def State.advance (s : State) : State := { s with substep := s.substep + 1 }

/-- `chan <- v` (spec/10_state.md R18). -/
def State.setChan (s : State) (v : Word16) : State := { s with chan := v }

/-- `pkt <- v` (spec/10_state.md R19). -/
def State.setPkt (s : State) (v : Byte) : State := { s with pkt := v }

/-- `seg <- v` (spec/10_state.md R20). -/
def State.setSeg (s : State) (v : SegId) : State := { s with seg := v }

/-- The cache is replaced wholesale (spec/42_pipeline.md R73). -/
def State.replaceCache (s : State) (id : SegId) (recs : List Record) : State :=
  { s with cache := { id := some id, recs := recs } }

/-- `invalidate()` (spec/60_exceptions.md R97). -/
def State.invalidate (s : State) : State := { s with cache := { id := none, recs := [] } }

/-! ### The Pacer's registers (spec/43_pacer.md R93) -/

/-- Starts the Pacer on record `idx` (spec/41_argument_states.md R70). -/
def State.startPacer (s : State) (idx : BitVec 8) : State :=
  { s with pz := { active := true, idx := idx, cursor := 0 } }

/-- Cancels an active run, silently; does nothing to an inactive Pacer (spec/40_commands.md R56). -/
def State.cancelPacer (s : State) : State :=
  if s.pz.active then { s with pz := { s.pz with active := false, cursor := 0 } } else s

/-- Stops the Pacer at the end of its record (spec/43_pacer.md R92). -/
def State.stopPacer (s : State) : State := { s with pz := { s.pz with active := false } }

/-- `pz.cursor <- pz.cursor + 1` (spec/43_pacer.md R91). -/
def State.advanceCursor (s : State) : State := { s with pz := { s.pz with cursor := s.pz.cursor + 1 } }

/-- One record byte as the Pacer sends it: the byte 0x10 twice, every other byte once (spec/43_pacer.md R91). -/
def escapeByte (b : Byte) : List Byte := if b = dle then [b, dle] else [b]

/-- `esc(r)` (spec/30_encoding.md R50). -/
def escapeRecord (r : Record) : List Byte := r.flatMap escapeByte

/-! ### Faults and failures -/

/-- `raise Fault(info)` (spec/60_exceptions.md R99, R100): the fault is recorded and nothing else changes. -/
def State.raiseFault (s : State) (info : FaultInfo) : State := { s with fault := some info }

/-- Taking a pipeline failure, of any kind (spec/41_argument_states.md R67, R68; spec/60_exceptions.md R103): the reply 0x90 and
`Idle`. The cache was invalidated where the failure was met (R71). There is no return (R104). -/
def State.takeFailure (s : State) (_kind : FailKind) : State := (s.emit [segFailByte]).enter .idle

/-- Every rule of an event applies while `fault = NONE`; while it is set an event changes nothing (spec/60_exceptions.md R100). -/
def State.unlessFaulted (s : State) (t : Host.Outcome State Fault Refusal) : Host.Outcome State Fault Refusal :=
  match s.fault with
  | none => t
  | some _ => .next s

/-! ### The oracles -/

/-- The answer the backend gives if it is asked for `id` now: the oldest one lined up, or else a free value (R74; log entry 3). -/
def State.backendAnswer (s : State) (id : SegId) : BackendResult :=
  match s.backendAnswers with
  | a :: _ => a
  | [] => Config.freeBackend s.queries.length id

/-- The state after `Backend(id)` was asked: the query is recorded and the answer used up. -/
def State.afterQuery (s : State) (id : SegId) : State :=
  { s with queries := s.queries ++ [id], backendAnswers := s.backendAnswers.tail }

/-- The answer the clock gives if it is asked now: the oldest one lined up, or else a free value (R78; log entry 4). -/
def State.clockAnswer (s : State) : ClockTime :=
  match s.clockAnswers with
  | a :: _ => a
  | [] => Config.freeClock s.clockReads

/-- The state after `Now()` was asked. -/
def State.afterClock (s : State) : State :=
  { s with clockReads := s.clockReads + 1, clockAnswers := s.clockAnswers.tail }

/-! ### Reset -/

/-- Every piece of the spec's state at its reset value; the streams, the parameters and the inputs stay
(spec/70_reset_and_hazards.md R110). `fault` is not written. -/
def State.resetRegisters (s : State) : State :=
  { s with
    state := .idle
    substep := 0
    chan := 0
    pkt := 0
    seg := 0
    cache := { id := none, recs := [] }
    pz := { active := false, idx := 0, cursor := 0 } }

/-! ### Taking an event -/

/-- The point of control (spec/10_state.md R24). -/
def State.point (s : State) : Point := ⟨s.state, s.substep⟩

/-- The Pacer's condition (spec/43_pacer.md R90, R91, R92). -/
def State.pacerPhase (s : State) : PacerPhase :=
  if s.pz.active then
    match s.cache.recs[s.pz.idx.toNat]? with
    | none => .noRecord
    | some r =>
      if s.pz.cursor.toNat < r.length then .sending
      else if s.pz.cursor.toNat = r.length then .ended
      else .pastEnd
  else .idle

/-- The decode table's entry that an event has in this state (spec/30_encoding.md R45). -/
def State.key (s : State) : Event → Key
  | .rx b => .rx s.point b
  | .tick => .tick s.pacerPhase
  | .reset => .reset

/-- The state with its oldest lined-up event taken away. -/
def State.popEvent (s : State) : State := { s with inbox := s.inbox.tail }

/-- The next event decoded in this state; `none` when none is lined up or a fault is set (spec/60_exceptions.md R100). -/
def State.fetch (s : State) : Option (Except DecodeError Instr) :=
  match s.fault, s.inbox with
  | none, e :: _ => some (decode (s.key e))
  | _, _ => none

/-- Lines up the event of a table word (log entry 15) before every other one, with the point of control, the inactive Pacer or the
cleared fault that the word's row needs. A word the table does not have changes nothing. -/
def State.placeWord (s : State) (nbits w : Nat) : State :=
  match tableKey nbits w with
  | some (.rx p b) =>
    { s with fault := none, state := p.state, substep := p.substep, inbox := .rx b :: s.inbox }
  | some (.tick _) =>
    { s with fault := none, pz := { s.pz with active := false }, inbox := .tick :: s.inbox }
  | some .reset => { s with fault := none, inbox := .reset :: s.inbox }
  | none => s

end Sys2Proof.Machine
end

