-- ==== Sys2Proof/Machine/Pipeline.lean ====
section
/-! DEFINITION. The segment pipeline (spec/42_pipeline.md R71 to R76). -/

namespace Sys2Proof.Machine

/-- What `Pipeline(id)` returns (R71). -/
inductive PipelineResult where
  | ok
  | fail (kind : FailKind)
  deriving DecidableEq, Repr

/-- The records a backend answer gives, or the first failure in the order of spec/60_exceptions.md R102: the backend's own answer,
the size limit (R75), the container checks (R83). -/
def encodeAnswer (p : Params) (id : SegId) : BackendResult → Except FailKind (List Record)
  | .notFound => .error .notFound
  | .tooLarge => .error .tooLarge
  | .ioError => .error .ioError
  | .ok kind bytes =>
    if maxSegment < bytes.length then .error .tooLarge
    else
      match kind with
      | .raw => .ok (rawRecords p id bytes)
      | .container => passThrough p bytes

/-- The cached records serve the id without a query (R72). -/
def State.cacheHit (s : State) (id : SegId) : Bool :=
  s.cache.id == some id && !s.cache.recs.isEmpty

/-- `Pipeline(id)` (R71): the clock test, the cache test, then one backend query. -/
def pipeline (id : SegId) (s : State) : PipelineResult × State :=
  if id = clockId then
    (.ok, s.afterClock.replaceCache clockId (clockRecords s.params s.clockAnswer))
  else if s.cacheHit id then (.ok, s)
  else
    match encodeAnswer s.params id (s.backendAnswer id) with
    | .ok recs => (.ok, (s.afterQuery id).replaceCache id recs)
    | .error kind => (.fail kind, (s.afterQuery id).invalidate)

end Sys2Proof.Machine
end

