-- ==== Sys2Proof/Machine/Argument.lean ====
section
/-! DEFINITION. The argument bytes (spec/41_argument_states.md R61 to R68). A byte that does not complete its state's arguments
advances `substep`; one that does enters the next state, which resets it (R61). -/

namespace Sys2Proof.Machine

/-- The end of an exchange that is answered DONE (R62, R63). -/
def State.finish (s : State) : State := (s.emit [doneByte]).enter .idle

/-- CHAN_A0 (R62): `chan[7:0] <- b`. -/
def execChanA0 (b : Byte) (s : State) : Host.Outcome State Fault Refusal :=
  s.unlessFaulted (.next (s.setChan (withLowByte s.chan b)).advance)

/-- CHAN_A1 (R62): `chan[15:8] <- b`, DONE, `Idle`. -/
def execChanA1 (b : Byte) (s : State) : Host.Outcome State Fault Refusal :=
  s.unlessFaulted (.next (s.setChan (withHighByte s.chan b)).finish)

/-- SETSTAT_D0 (R63): the byte is discarded. -/
def execSetstatD0 (_b : Byte) (s : State) : Host.Outcome State Fault Refusal :=
  s.unlessFaulted (.next s.advance)

/-- SETSTAT_D1 (R63): the byte is discarded, DONE, `Idle`. -/
def execSetstatD1 (_b : Byte) (s : State) : Host.Outcome State Fault Refusal :=
  s.unlessFaulted (.next s.finish)

/-- GETSTAT_Q01 (R64): the status byte, the terminator, `Idle`. -/
def execGetstatQ01 (s : State) : Host.Outcome State Fault Refusal :=
  s.unlessFaulted (.next ((s.emit (statusByte s.params.promptForChannel :: termBytes)).enter .idle))

/-- GETSTAT_QOTHER (R64): the terminator alone, `Idle`. -/
def execGetstatQother (_b : Byte) (s : State) : Host.Outcome State Fault Refusal :=
  s.unlessFaulted (.next ((s.emit termBytes).enter .idle))

/-- SEGREQ_PKT (R65): `pkt <- b`. -/
def execSegreqPkt (b : Byte) (s : State) : Host.Outcome State Fault Refusal :=
  s.unlessFaulted (.next (s.setPkt b).advance)

/-- SEGREQ_ID0 (R66): `seg[7:0] <- b`. -/
def execSegreqId0 (b : Byte) (s : State) : Host.Outcome State Fault Refusal :=
  s.unlessFaulted (.next (s.setSeg (withSegByte0 s.seg b)).advance)

/-- SEGREQ_ID1 (R66): `seg[15:8] <- b`. -/
def execSegreqId1 (b : Byte) (s : State) : Host.Outcome State Fault Refusal :=
  s.unlessFaulted (.next (s.setSeg (withSegByte1 s.seg b)).advance)

/-- The reply to the pipeline's result (R67, R68). -/
def State.segmentReply (s : State) : PipelineResult → State
  | .ok => (s.emit [segOkByte]).enter .sendSegment
  | .fail kind => s.takeFailure kind

/-- The whole of the fourth `SegmentRequest` byte (R67): the id's last byte, DONE, the pipeline, its reply. -/
def State.requestSegment (s : State) (b : Byte) : State :=
  let id := withSegByte2 s.seg b
  let (result, s') := pipeline id ((s.setSeg id).emit [doneByte])
  s'.segmentReply result

/-- SEGREQ_ID2 (R67): `seg[23:16] <- b`, then the pipeline. -/
def execSegreqId2 (b : Byte) (s : State) : Host.Outcome State Fault Refusal :=
  s.unlessFaulted (.next (s.requestSegment b))

end Sys2Proof.Machine
end

