-- ==== Sys2Proof/Machine/Command.lean ====
section
/-! DEFINITION. The command bytes in `Idle` (spec/40_commands.md). Each emits its ack before it changes `state` (R54). -/

namespace Sys2Proof.Machine

/-- A command that acknowledges and waits for arguments (R55, R58, R59; and R56 after its cancel). -/
def State.ackAndEnter (s : State) (p : ProtoState) : State := (s.emit ackBytes).enter p

/-- CHAN (R55). -/
def execChan (s : State) : Host.Outcome State Fault Refusal :=
  s.unlessFaulted (.next (s.ackAndEnter .channelRequest))

/-- SEGREQ (R56): cancels an active Pacer run first. -/
def execSegreq (s : State) : Host.Outcome State Fault Refusal :=
  s.unlessFaulted (.next (s.cancelPacer.ackAndEnter .segmentRequest))

/-- CMD83 (R57). -/
def execCmd83 (s : State) : Host.Outcome State Fault Refusal :=
  s.unlessFaulted (.next ((s.emit (ackBytes ++ [doneByte])).enter .idle))

/-- GETSTAT (R58). -/
def execGetstat (s : State) : Host.Outcome State Fault Refusal :=
  s.unlessFaulted (.next (s.ackAndEnter .getStatusRequest))

/-- SETSTAT (R59). -/
def execSetstat (s : State) : Host.Outcome State Fault Refusal :=
  s.unlessFaulted (.next (s.ackAndEnter .setStatusRequest))

/-- IGNORE (R60): no reply; `state <- Idle`. -/
def execIgnore (_b : Byte) (s : State) : Host.Outcome State Fault Refusal :=
  s.unlessFaulted (.next (s.enter .idle))

end Sys2Proof.Machine
end

