-- ==== Sys2Proof/Machine/Handshake.lean ====
section
/-! DEFINITION. The handshake bytes in `SendSegment` (spec/41_argument_states.md R69, R70; spec/60_exceptions.md R98, R99). -/

namespace Sys2Proof.Machine

/-- HS1 (R69): the expected 0x10. -/
def execHs1 (s : State) : Host.Outcome State Fault Refusal :=
  s.unlessFaulted (.next s.advance)

/-- HS1_ABORT (R69): silent, the byte is consumed. -/
def execHs1Abort (_b : Byte) (s : State) : Host.Outcome State Fault Refusal :=
  s.unlessFaulted (.next (s.enter .idle))

/-- HS2 (R70): the expected 0x06 starts the Pacer on record `pkt`, or raises `PacketIndexOutOfRange` when there is none. -/
def execHs2 (s : State) : Host.Outcome State Fault Refusal :=
  s.unlessFaulted
    (if s.cache.recs.length ≤ s.pkt.toNat then
      .next (s.raiseFault (.packetIndexOutOfRange s.pkt s.cache.recs.length))
    else .next ((s.startPacer s.pkt).enter .idle))

/-- HS2_ABORT (R70): silent, the byte is consumed. -/
def execHs2Abort (_b : Byte) (s : State) : Host.Outcome State Fault Refusal :=
  s.unlessFaulted (.next (s.enter .idle))

end Sys2Proof.Machine
end

