-- ==== Sys2Proof/Machine/ResetEvent.lean ====
section
/-! DEFINITION. The RESET event (spec/70_reset_and_hazards.md R110). -/

namespace Sys2Proof.Machine

/-- RESET (R110): every piece of state to its reset value, no emit; without effect while a fault is set (R100). -/
def execReset (s : State) : Host.Outcome State Fault Refusal :=
  s.unlessFaulted (.next s.resetRegisters)

end Sys2Proof.Machine
end

