-- ==== Sys2Proof/Machine/Tick.lean ====
section
/-! DEFINITION. The Pacer's ticks (spec/43_pacer.md). -/

namespace Sys2Proof.Machine

/-- TICK_IDLE (R90): nothing. -/
def execTickIdle (s : State) : Host.Outcome State Fault Refusal :=
  s.unlessFaulted (.next s)

/-- TICK_DATA (R91): the byte at the cursor, 0x10 twice, and the cursor moves on. -/
def execTickData (s : State) : Host.Outcome State Fault Refusal :=
  s.unlessFaulted
    (match s.cache.recs.readByte s.pz.idx.toNat s.pz.cursor.toNat with
    | some b => .next (s.emit (escapeByte b)).advanceCursor
    | none => .fault (.recordByteAbsent s.pz.idx s.pz.cursor.toNat))

/-- TICK_END (R92): the terminator, and the Pacer stops. -/
def execTickEnd (s : State) : Host.Outcome State Fault Refusal :=
  s.unlessFaulted (.next (s.emit termBytes).stopPacer)

end Sys2Proof.Machine
end

