-- ==== Sys2Proof/Machine/Dispatch.lean ====
section
/-! DEFINITION. The meaning of each instruction: one arm per constructor. -/

namespace Sys2Proof.Machine

def exec (i : Instr) (s : State) : Host.Outcome State Fault Refusal :=
  match i with
  | .chan => Sys2Proof.Machine.execChan s
  | .segreq => Sys2Proof.Machine.execSegreq s
  | .cmd83 => Sys2Proof.Machine.execCmd83 s
  | .getstat => Sys2Proof.Machine.execGetstat s
  | .setstat => Sys2Proof.Machine.execSetstat s
  | .ignore b => Sys2Proof.Machine.execIgnore b s
  | .chanA0 b => Sys2Proof.Machine.execChanA0 b s
  | .chanA1 b => Sys2Proof.Machine.execChanA1 b s
  | .setstatD0 b => Sys2Proof.Machine.execSetstatD0 b s
  | .setstatD1 b => Sys2Proof.Machine.execSetstatD1 b s
  | .getstatQ01 => Sys2Proof.Machine.execGetstatQ01 s
  | .getstatQother b => Sys2Proof.Machine.execGetstatQother b s
  | .segreqPkt b => Sys2Proof.Machine.execSegreqPkt b s
  | .segreqId0 b => Sys2Proof.Machine.execSegreqId0 b s
  | .segreqId1 b => Sys2Proof.Machine.execSegreqId1 b s
  | .segreqId2 b => Sys2Proof.Machine.execSegreqId2 b s
  | .hs1 => Sys2Proof.Machine.execHs1 s
  | .hs1Abort b => Sys2Proof.Machine.execHs1Abort b s
  | .hs2 => Sys2Proof.Machine.execHs2 s
  | .hs2Abort b => Sys2Proof.Machine.execHs2Abort b s
  | .tickIdle => Sys2Proof.Machine.execTickIdle s
  | .tickData => Sys2Proof.Machine.execTickData s
  | .tickEnd => Sys2Proof.Machine.execTickEnd s
  | .reset => Sys2Proof.Machine.execReset s

end Sys2Proof.Machine
end

