-- ==== Sys2Proof/Machine/Step.lean ====
section
/-! DEFINITION. One step: the oldest lined-up event, decoded in the state it meets, runs its instruction. -/

namespace Sys2Proof.Machine

/-- One step. An event is taken from the inbox and its instruction runs (spec/20_memory.md R37). With no event lined up the machine
holds its state (spec/70_reset_and_hazards.md R114); while a fault is set an event is not decoded and changes nothing
(spec/60_exceptions.md R100). -/
def step (s : State) : Host.Outcome State Fault Refusal :=
  match s.fetch with
  | none => .next s.popEvent
  | some (.ok i) => exec i s.popEvent
  | some (.error reason) => .refused (.undecodable reason)

/-- The state in which the very next step runs a word of spec/opcode_table.json (log entry 15). -/
def State.withFetchWord (s : State) (nbits w : Nat) : State := s.placeWord nbits w

end Sys2Proof.Machine
end

