-- ==== Sys2Proof/Safety.lean ====
section
/-! DEFINITION. The terms of the claims: runs, what leaves the record store as it was, and the invariant of the machine, what spec/
says always holds of the state between steps. -/

namespace Sys2Proof.Machine

/-- `n` steps, ending at the first stop. -/
def State.run (s : State) : Nat → Host.Outcome State Fault Refusal
  | 0 => .next s
  | n + 1 =>
    match step s with
    | .next t => t.run n
    | .fault r => .fault r
    | .refused r => .refused r

/-- Every byte of the record store, and every address that is not there, reads as before. -/
def State.sameRecordBytes (s t : State) : Prop :=
  ∀ i off, t.cache.recs.readByte i off = s.cache.recs.readByte i off

/-- The pending segment id once its last byte has arrived (spec/41_argument_states.md R67). -/
def State.requestedId (s : State) (b : Byte) : SegId := b ++ s.seg.extractLsb' 0 16

/-- A record's last two bytes are the CRC of the bytes before them, high byte first (spec/42_pipeline.md R88). -/
def crcHolds (table : CrcTable) (r : Record) : Prop :=
  r.drop (r.length - crcLength) = bigEndian (crc16 table (r.take (r.length - crcLength)))

/-- The cache's invariant (spec/10_state.md R22; spec/20_memory.md R34; spec/42_pipeline.md R85, R88). -/
structure CacheInv (p : Params) (c : Cache) : Prop where
  /-- `cache.id = NONE` implies `cache.n = 0` (R22) -/
  emptyWithoutId : c.id = none → c.recs = []
  /-- the record lengths (R34) -/
  lengths : c.recs.wf = true
  /-- the CRC of every record (R88) -/
  crcs : ∀ r ∈ c.recs, crcHolds p.crcTable r
  /-- the clock segment is one record (R85) -/
  clockIsOne : c.id = some clockId → c.recs.length = 1

/-- The Pacer's invariant (spec/10_state.md R13, R23; spec/43_pacer.md R91). -/
structure PacerInv (c : Cache) (pz : Pacer) : Prop where
  /-- the cursor is from 0 to 1009 (R13) -/
  cursorBound : pz.cursor.toNat ≤ maxRecord
  /-- an active Pacer has a record and its cursor is from 0 to the record's length (R23, R91) -/
  activeRecord : pz.active = true → ∃ r, c.recs[pz.idx.toNat]? = some r ∧ pz.cursor.toNat ≤ r.length

/-- The invariant of the machine. -/
structure State.Inv (s : State) : Prop where
  /-- the point of control is legal (spec/10_state.md R17) -/
  pointLegal : s.point.legal = true
  cacheInv : CacheInv s.params s.cache
  pacerInv : PacerInv s.cache s.pz
  /-- no run is active during a segment exchange (spec/41_argument_states.md R70, spec/42_pipeline.md R73) -/
  quietExchange : s.state = .segmentRequest ∨ s.state = .sendSegment → s.pz.active = false
  /-- a fault was raised by the second handshake byte (spec/60_exceptions.md R99) -/
  faultOrigin : ∀ k n, s.fault = some (.packetIndexOutOfRange k n) →
    s.point = ⟨.sendSegment, 1⟩ ∧ k = s.pkt ∧ n = s.cache.recs.length ∧ n ≤ k.toNat

end Sys2Proof.Machine
end

