-- ==== Sys2Proof/Certificates/Slice0/Obligations.lean ====
section
/-! DEFINITION. The statements for the provers. Bytes are written out as spec/ writes them; a statement's docstring names the rule
it formalises, and where a clause is a decision of the spec (D<n> of spec/92_eei_decisions.md) rather than its source's words, the decision. -/

open Sys2Proof Sys2Proof.Machine

/-! ### Decoding (spec/30_encoding.md) -/

/-- R45: the decode table, row by row. -/
def Obligations.DecodeTableRowByRow : Prop :=
  decode (.rx ⟨.idle, 0⟩ 0x85) = .ok .chan ∧
  decode (.rx ⟨.idle, 0⟩ 0x84) = .ok .segreq ∧
  decode (.rx ⟨.idle, 0⟩ 0x83) = .ok .cmd83 ∧
  decode (.rx ⟨.idle, 0⟩ 0x82) = .ok .getstat ∧
  decode (.rx ⟨.idle, 0⟩ 0x81) = .ok .setstat ∧
  (∀ b : Byte, b ≠ 0x85 → b ≠ 0x84 → b ≠ 0x83 → b ≠ 0x82 → b ≠ 0x81 →
    decode (.rx ⟨.idle, 0⟩ b) = .ok (.ignore b)) ∧
  (∀ b : Byte, decode (.rx ⟨.channelRequest, 0⟩ b) = .ok (.chanA0 b)) ∧
  (∀ b : Byte, decode (.rx ⟨.channelRequest, 1⟩ b) = .ok (.chanA1 b)) ∧
  (∀ b : Byte, decode (.rx ⟨.setStatusRequest, 0⟩ b) = .ok (.setstatD0 b)) ∧
  (∀ b : Byte, decode (.rx ⟨.setStatusRequest, 1⟩ b) = .ok (.setstatD1 b)) ∧
  decode (.rx ⟨.getStatusRequest, 0⟩ 0x01) = .ok .getstatQ01 ∧
  (∀ b : Byte, b ≠ 0x01 → decode (.rx ⟨.getStatusRequest, 0⟩ b) = .ok (.getstatQother b)) ∧
  (∀ b : Byte, decode (.rx ⟨.segmentRequest, 0⟩ b) = .ok (.segreqPkt b)) ∧
  (∀ b : Byte, decode (.rx ⟨.segmentRequest, 1⟩ b) = .ok (.segreqId0 b)) ∧
  (∀ b : Byte, decode (.rx ⟨.segmentRequest, 2⟩ b) = .ok (.segreqId1 b)) ∧
  (∀ b : Byte, decode (.rx ⟨.segmentRequest, 3⟩ b) = .ok (.segreqId2 b)) ∧
  decode (.rx ⟨.sendSegment, 0⟩ 0x10) = .ok .hs1 ∧
  (∀ b : Byte, b ≠ 0x10 → decode (.rx ⟨.sendSegment, 0⟩ b) = .ok (.hs1Abort b)) ∧
  decode (.rx ⟨.sendSegment, 1⟩ 0x06) = .ok .hs2 ∧
  (∀ b : Byte, b ≠ 0x06 → decode (.rx ⟨.sendSegment, 1⟩ b) = .ok (.hs2Abort b)) ∧
  decode (.tick .idle) = .ok .tickIdle ∧
  decode (.tick .sending) = .ok .tickData ∧
  decode (.tick .ended) = .ok .tickEnd ∧
  decode .reset = .ok .reset

/-- Decoding the encoding of a well-formed instruction gives it back, for every instruction and every operand byte (R45). -/
def Obligations.DecodeOfEncodeReturnsInstruction : Prop :=
  ∀ i : Instr, i.wellFormed = true → decode (encode i) = .ok i

/-- The other direction: what decodes to an instruction is its encoding, and the instruction is well formed (R45, R47). -/
def Obligations.DecodedEntryIsTheEncoding : Prop :=
  ∀ (k : Key) (i : Instr), decode k = .ok i → encode i = k ∧ i.wellFormed = true

/-- The decoder answers an instruction exactly where the table has a row: on every byte at a point of control of R17, on the
three Pacer conditions of R90 to R92, and on RESET. -/
def Obligations.DecodeAnswersExactlyOnTheTable : Prop :=
  ∀ k : Key, (∃ i, decode k = .ok i) ↔
    match k with
    | .rx ⟨.idle, n⟩ _ => n.toNat = 0
    | .rx ⟨.channelRequest, n⟩ _ => n.toNat ≤ 1
    | .rx ⟨.setStatusRequest, n⟩ _ => n.toNat ≤ 1
    | .rx ⟨.getStatusRequest, n⟩ _ => n.toNat = 0
    | .rx ⟨.segmentRequest, n⟩ _ => n.toNat ≤ 3
    | .rx ⟨.sendSegment, n⟩ _ => n.toNat ≤ 1
    | .tick ph => ph = .idle ∨ ph = .sending ∨ ph = .ended
    | .reset => True

/-! ### Steps (spec/20_memory.md R37, spec/60_exceptions.md R100) -/

/-- A step takes the oldest event that is lined up, decodes it in the state it meets, and runs the instruction. -/
def Obligations.StepRunsTheDecodedInstruction : Prop :=
  ∀ (s : State) (e : Event) (rest : List Event) (i : Instr),
    s.fault = none → s.inbox = e :: rest →
    decode (match e with
      | .rx b => .rx ⟨s.state, s.substep⟩ b
      | .tick => .tick s.pacerPhase
      | .reset => .reset) = .ok i →
    step s = exec i { s with inbox := rest }

/-- The Pacer condition under which a tick is decoded (R90, R91, R92). -/
def Obligations.PacerConditionOfATick : Prop :=
  (∀ s : State, s.pacerPhase = .idle ↔ s.pz.active = false) ∧
  (∀ s : State, s.pacerPhase = .sending ↔
    s.pz.active = true ∧ ∃ r, s.cache.recs[s.pz.idx.toNat]? = some r ∧ s.pz.cursor.toNat < r.length) ∧
  (∀ s : State, s.pacerPhase = .ended ↔
    s.pz.active = true ∧ ∃ r, s.cache.recs[s.pz.idx.toNat]? = some r ∧ s.pz.cursor.toNat = r.length)

/-- R100 (the spec's decision D26): while a fault is set no instruction changes anything, and a step only uses up its event. -/
def Obligations.FaultedMachineIgnoresEveryEvent : Prop :=
  ∀ s : State, s.fault ≠ none →
    (∀ i : Instr, exec i s = .next s) ∧ step s = .next { s with inbox := s.inbox.tail }

/-- With no event lined up the machine holds its state (R112, R114; how a step shows this is the model's choice, log entry 1). -/
def Obligations.MachineHoldsItsStateWithoutEvents : Prop :=
  ∀ s : State, s.inbox = [] → step s = .next s

/-! ### Whole-machine claims -/

/-- The invariant holds after reset. -/
def Obligations.InvariantHoldsAtReset : Prop := State.reset.Inv

/-- Every step keeps the invariant (R17, R22, R23, R34, R70, R73, R85, R88, R91, R99). -/
def Obligations.InvariantKeptByEveryStep : Prop :=
  ∀ s t : State, s.Inv → step s = .next t → t.Inv

/-- From a state of the invariant every step completes: no fault of the step and no refusal is reachable (R45, R68, R91, R96). -/
def Obligations.StepCompletesUnderTheInvariant : Prop :=
  ∀ s : State, s.Inv → ∃ t, step s = .next t

/-- The record store keeps its form under every step, whatever the rest of the state: every record has 18 to 1009 bytes (R22, R34). -/
def Obligations.RecordLengthsKeptByEveryStep : Prop :=
  ∀ s t : State, (∀ r ∈ s.cache.recs, 18 ≤ r.length ∧ r.length ≤ 1009) → step s = .next t →
    ∀ r ∈ t.cache.recs, 18 ≤ r.length ∧ r.length ≤ 1009

/-- The parameters are constant for a run (R14, R21, R110; decision D19). -/
def Obligations.ParametersNeverChange : Prop :=
  ∀ s t : State, step s = .next t → t.params = s.params

/-- A step only appends to the transmit stream (R39), and takes at most the oldest event (R37). -/
def Obligations.StepAppendsToTheTransmitStream : Prop :=
  ∀ s t : State, step s = .next t → (∃ l, t.tx = s.tx ++ l) ∧ t.inbox = s.inbox.tail

/-- Which instruction may write which register (R18, R19, R20, R22, R23, R28, R93, R99). -/
def Obligations.WhichInstructionWritesWhichRegister : Prop :=
  ∀ (i : Instr) (s t : State), exec i s = .next t →
    (t.chan = s.chan ∨ (∃ b, i = .chanA0 b) ∨ (∃ b, i = .chanA1 b) ∨ i = .reset) ∧
    (t.pkt = s.pkt ∨ (∃ b, i = .segreqPkt b) ∨ i = .reset) ∧
    (t.seg = s.seg ∨ (∃ b, i = .segreqId0 b) ∨ (∃ b, i = .segreqId1 b) ∨ (∃ b, i = .segreqId2 b) ∨ i = .reset) ∧
    (t.cache = s.cache ∨ (∃ b, i = .segreqId2 b) ∨ i = .reset) ∧
    (t.pz = s.pz ∨ i = .segreq ∨ i = .hs2 ∨ i = .tickData ∨ i = .tickEnd ∨ i = .reset) ∧
    (t.fault = s.fault ∨ i = .hs2)

/-- Only the second handshake byte starts the Pacer; only 0x84, the end of the record and RESET stop it (R93). -/
def Obligations.WhatStartsAndStopsThePacer : Prop :=
  ∀ (i : Instr) (s t : State), exec i s = .next t →
    (s.pz.active = false → t.pz.active = true → i = .hs2) ∧
    (s.pz.active = true → t.pz.active = false → i = .segreq ∨ i = .tickEnd ∨ i = .reset)

/-- R71: only the fourth `SegmentRequest` byte asks an oracle, at most one of the two, at most once, the backend for the id just
assembled, and the clock for the clock segment only. -/
def Obligations.AtMostOneOracleQueryPerStep : Prop :=
  ∀ (i : Instr) (s t : State), exec i s = .next t →
    (t.queries = s.queries ∧ t.clockReads = s.clockReads) ∨
    ((∃ b, i = .segreqId2 b) ∧ t.seg ≠ 0x7FFFFF ∧ t.queries = s.queries ++ [t.seg] ∧ t.clockReads = s.clockReads) ∨
    ((∃ b, i = .segreqId2 b) ∧ t.seg = 0x7FFFFF ∧ t.queries = s.queries ∧ t.clockReads = s.clockReads + 1)

/-! ### Reset (spec/70_reset_and_hazards.md) -/

/-- R111: the reset value of every piece of state. The values of `chan`, `pkt`, `seg`, the cache and the Pacer are the spec's
decisions D3, D4, D5. -/
def Obligations.ResetStateHoldsTheResetValues : Prop :=
  State.reset.state = .idle ∧ State.reset.substep = 0 ∧ State.reset.chan = 0 ∧ State.reset.pkt = 0 ∧
  State.reset.seg = 0 ∧ State.reset.cache.id = none ∧ State.reset.cache.recs = [] ∧
  State.reset.pz.active = false ∧ State.reset.pz.idx = 0 ∧ State.reset.pz.cursor = 0 ∧
  State.reset.fault = none ∧ State.reset.tx = []

/-- R110: RESET writes every piece of state, emits nothing, keeps the stream, the parameters and everything of the environment
(decisions D3, D4, D5). -/
def Obligations.ResetWritesEveryRegister : Prop :=
  ∀ s : State, s.fault = none →
    exec .reset s = .next { s with
      state := .idle
      substep := 0
      chan := 0
      pkt := 0
      seg := 0
      cache := { id := none, recs := [] }
      pz := { active := false, idx := 0, cursor := 0 } }

/-! ### Command bytes in Idle (spec/40_commands.md) -/

/-- R55, R57, R58, R59, R60: the command bytes but 0x84, each with its encoding. CHAN, GETSTAT and SETSTAT send ACK and wait for
arguments; 0x83 sends ACK and DONE and stays in `Idle`; any other byte is ignored without a reply. Nothing else changes, the Pacer
included. -/
def Obligations.CommandBytesInIdle : Prop :=
  decode (.rx ⟨.idle, 0⟩ 0x85) = .ok .chan ∧
  decode (.rx ⟨.idle, 0⟩ 0x82) = .ok .getstat ∧
  decode (.rx ⟨.idle, 0⟩ 0x81) = .ok .setstat ∧
  decode (.rx ⟨.idle, 0⟩ 0x83) = .ok .cmd83 ∧
  (∀ b : Byte, b.toNat ≤ 0x80 ∨ 0x86 ≤ b.toNat → decode (.rx ⟨.idle, 0⟩ b) = .ok (.ignore b)) ∧
  ∀ s : State, s.fault = none →
    exec .chan s = .next { s with tx := s.tx ++ [0x10, 0x06], state := .channelRequest, substep := 0 } ∧
    exec .getstat s = .next { s with tx := s.tx ++ [0x10, 0x06], state := .getStatusRequest, substep := 0 } ∧
    exec .setstat s = .next { s with tx := s.tx ++ [0x10, 0x06], state := .setStatusRequest, substep := 0 } ∧
    exec .cmd83 s = .next { s with tx := s.tx ++ [0x10, 0x06, 0xE4], state := .idle, substep := 0 } ∧
    ∀ b : Byte, exec (.ignore b) s = .next { s with state := .idle, substep := 0 }

/-- R56 (decision D16): SEGREQ cancels an active run, silently and before the ack, and keeps `pz.idx` and the cache. -/
def Obligations.SegmentRequestCancelsThePacer : Prop :=
  ∀ s : State, s.fault = none →
    exec .segreq s = .next { s with
      tx := s.tx ++ [0x10, 0x06]
      state := .segmentRequest
      substep := 0
      pz := if s.pz.active = true then { active := false, idx := s.pz.idx, cursor := 0 } else s.pz }

/-- R56, R93, R115: after a SEGREQ no number of ticks emits or changes anything. -/
def Obligations.CancelledRunStaysSilent : Prop :=
  ∀ (s t : State) (n : Nat), s.fault = none → exec .segreq s = .next t →
    State.run { t with inbox := List.replicate n .tick } n = .next { t with inbox := [] }

/-! ### Argument bytes (spec/41_argument_states.md) -/

/-- R62, R66: the channel id's bytes and the first two segment id bytes, each written as it arrives (decision D20), low byte first;
DONE and `Idle` after the channel id's second. -/
def Obligations.IdBytesAreStoredOnArrival : Prop :=
  ∀ (s : State) (b : Byte), s.fault = none →
    exec (.chanA0 b) s = .next { s with chan := s.chan.extractLsb' 8 8 ++ b, substep := s.substep + 1 } ∧
    exec (.chanA1 b) s = .next { s with
      chan := b ++ s.chan.extractLsb' 0 8, tx := s.tx ++ [0xE4], state := .idle, substep := 0 } ∧
    exec (.segreqId0 b) s = .next { s with seg := s.seg.extractLsb' 8 16 ++ b, substep := s.substep + 1 } ∧
    exec (.segreqId1 b) s = .next { s with
      seg := s.seg.extractLsb' 16 8 ++ b ++ s.seg.extractLsb' 0 8, substep := s.substep + 1 }

/-- R63: the two status bytes are discarded; DONE and `Idle` after the second. -/
def Obligations.StatusBytesAreDiscarded : Prop :=
  (∀ b : Byte, decode (.rx ⟨.setStatusRequest, 0⟩ b) = .ok (.setstatD0 b) ∧
    decode (.rx ⟨.setStatusRequest, 1⟩ b) = .ok (.setstatD1 b)) ∧
  ∀ (s : State) (b : Byte), s.fault = none →
    exec (.setstatD0 b) s = .next { s with substep := s.substep + 1 } ∧
    exec (.setstatD1 b) s = .next { s with tx := s.tx ++ [0xE4], state := .idle, substep := 0 }

/-- R64: the status query; 0x9F or 0x1F by PROMPT_FOR_CHANNEL for the selector 0x01, no status byte for any other; the terminator
always. -/
def Obligations.StatusQueryReplies : Prop :=
  decode (.rx ⟨.getStatusRequest, 0⟩ 0x01) = .ok .getstatQ01 ∧
  (∀ b : Byte, b ≠ 0x01 → decode (.rx ⟨.getStatusRequest, 0⟩ b) = .ok (.getstatQother b)) ∧
  ∀ (s : State) (b : Byte), s.fault = none →
    (s.params.promptForChannel = true → exec .getstatQ01 s = .next { s with
      tx := s.tx ++ [0x9F, 0x10, 0xE1], state := .idle, substep := 0 }) ∧
    (s.params.promptForChannel = false → exec .getstatQ01 s = .next { s with
      tx := s.tx ++ [0x1F, 0x10, 0xE1], state := .idle, substep := 0 }) ∧
    exec (.getstatQother b) s = .next { s with tx := s.tx ++ [0x10, 0xE1], state := .idle, substep := 0 }

/-- R65: the packet index byte, written as it arrives (decision D20). -/
def Obligations.PacketIndexByte : Prop :=
  (∀ b : Byte, decode (.rx ⟨.segmentRequest, 0⟩ b) = .ok (.segreqPkt b)) ∧
  ∀ (s : State) (b : Byte), s.fault = none →
    exec (.segreqPkt b) s = .next { s with pkt := b, substep := s.substep + 1 }

/-- R46, R47: a whole CHAN exchange from `Idle`, whatever its two argument bytes: `chan = a1 || a0`, reply `10 06 E4`. -/
def Obligations.ChannelExchange : Prop :=
  ∀ (s : State) (a0 a1 : Byte) (rest : List Event),
    s.fault = none → s.state = .idle → s.substep = 0 →
    s.inbox = .rx 0x85 :: .rx a0 :: .rx a1 :: rest →
    s.run 3 = .next { s with chan := a1 ++ a0, tx := s.tx ++ [0x10, 0x06, 0xE4], inbox := rest }

/-- R46, R96, R97, R103 and the source's first scenario: a whole SEGREQ exchange from `Idle` that misses the cache and whose
backend answer fails, of any kind: reply `10 06 E4 90`, back in `Idle`, the cache invalidated (decision D10), `pkt` and
`seg = s2 || s1 || s0` kept, one query. -/
def Obligations.FailedSegmentExchange : Prop :=
  ∀ (s : State) (p s0 s1 s2 : Byte) (rest : List Event) (kind : FailKind),
    s.fault = none → s.state = .idle → s.substep = 0 →
    s.inbox = .rx 0x84 :: .rx p :: .rx s0 :: .rx s1 :: .rx s2 :: rest →
    s2 ++ s1 ++ s0 ≠ (0x7FFFFF : SegId) →
    ¬ (s.cache.id = some (s2 ++ s1 ++ s0) ∧ s.cache.recs ≠ []) →
    encodeAnswer s.params (s2 ++ s1 ++ s0) (s.backendAnswer (s2 ++ s1 ++ s0)) = .error kind →
    s.run 5 = .next { s with
      pkt := p
      seg := s2 ++ s1 ++ s0
      cache := { id := none, recs := [] }
      pz := if s.pz.active = true then { active := false, idx := s.pz.idx, cursor := 0 } else s.pz
      tx := s.tx ++ [0x10, 0x06, 0xE4, 0x90]
      queries := s.queries ++ [s2 ++ s1 ++ s0]
      backendAnswers := s.backendAnswers.tail
      inbox := rest }

/-! ### The fourth SegmentRequest byte and the pipeline (spec/42_pipeline.md) -/

/-- R67, R71, R72, R85 (conflict C3, decision D21): the clock segment is rebuilt from the clock, never asked of the backend. -/
def Obligations.ClockSegmentRequest : Prop :=
  ∀ (s : State) (b : Byte), s.fault = none → s.requestedId b = 0x7FFFFF →
    exec (.segreqId2 b) s = .next { s with
      seg := 0x7FFFFF
      tx := s.tx ++ [0xE4, 0x91]
      state := .sendSegment
      substep := 0
      cache := { id := some 0x7FFFFF, recs := clockRecords s.params s.clockAnswer }
      clockReads := s.clockReads + 1
      clockAnswers := s.clockAnswers.tail }

/-- R67, R72: a repeat of the cached id asks no oracle and leaves the cache, byte for byte. -/
def Obligations.CacheHitRequest : Prop :=
  ∀ (s : State) (b : Byte), s.fault = none → s.requestedId b ≠ 0x7FFFFF →
    s.cache.id = some (s.requestedId b) → s.cache.recs ≠ [] →
    exec (.segreqId2 b) s = .next { s with
      seg := s.requestedId b
      tx := s.tx ++ [0xE4, 0x91]
      state := .sendSegment
      substep := 0 }

/-- R67, R71, R73, R75, R80: a cache miss whose backend answers `Raw` with at most 65536 bytes. -/
def Obligations.RawSegmentRequest : Prop :=
  ∀ (s : State) (b : Byte) (bytes : List Byte), s.fault = none → s.requestedId b ≠ 0x7FFFFF →
    ¬ (s.cache.id = some (s.requestedId b) ∧ s.cache.recs ≠ []) →
    s.backendAnswer (s.requestedId b) = .ok .raw bytes → bytes.length ≤ 65536 →
    exec (.segreqId2 b) s = .next { s with
      seg := s.requestedId b
      tx := s.tx ++ [0xE4, 0x91]
      state := .sendSegment
      substep := 0
      cache := { id := some (s.requestedId b), recs := rawRecords s.params (s.requestedId b) bytes }
      queries := s.queries ++ [s.requestedId b]
      backendAnswers := s.backendAnswers.tail }

/-- R67, R71, R73, R75, R82: a cache miss whose backend answers `Container` with at most 65536 bytes that parse. -/
def Obligations.ContainerSegmentRequest : Prop :=
  ∀ (s : State) (b : Byte) (bytes : List Byte) (recs : List Record), s.fault = none → s.requestedId b ≠ 0x7FFFFF →
    ¬ (s.cache.id = some (s.requestedId b) ∧ s.cache.recs ≠ []) →
    s.backendAnswer (s.requestedId b) = .ok .container bytes → bytes.length ≤ 65536 →
    passThrough s.params bytes = .ok recs →
    exec (.segreqId2 b) s = .next { s with
      seg := s.requestedId b
      tx := s.tx ++ [0xE4, 0x91]
      state := .sendSegment
      substep := 0
      cache := { id := some (s.requestedId b), recs := recs }
      queries := s.queries ++ [s.requestedId b]
      backendAnswers := s.backendAnswers.tail }

/-- R67, R68, R71, R96, R97, R103: on a cache miss each of the four failures (a backend refusal, too many bytes, a malformed
container) gives the same reply E4 90, `Idle` and an invalidated cache (decisions D9, D10). -/
def Obligations.FailedSegmentRequest : Prop :=
  ∀ (s : State) (b : Byte), s.fault = none → s.requestedId b ≠ 0x7FFFFF →
    ¬ (s.cache.id = some (s.requestedId b) ∧ s.cache.recs ≠ []) →
    (s.backendAnswer (s.requestedId b) = .notFound ∨
     s.backendAnswer (s.requestedId b) = .tooLarge ∨
     s.backendAnswer (s.requestedId b) = .ioError ∨
     (∃ kind bytes, s.backendAnswer (s.requestedId b) = .ok kind bytes ∧ 65536 < bytes.length) ∨
     (∃ bytes kind, s.backendAnswer (s.requestedId b) = .ok .container bytes ∧ passThrough s.params bytes = .error kind)) →
    exec (.segreqId2 b) s = .next { s with
      seg := s.requestedId b
      tx := s.tx ++ [0xE4, 0x90]
      state := .idle
      substep := 0
      cache := { id := none, recs := [] }
      queries := s.queries ++ [s.requestedId b]
      backendAnswers := s.backendAnswers.tail }

/-- R72's property: after a request that was answered SEG_OK with at least one record, the next request for the same id, from any
state that still holds that cache, makes no query and keeps the cache (unless it is the clock segment). -/
def Obligations.SecondRequestIsACacheHit : Prop :=
  ∀ (s t u v : State) (b c : Byte), s.fault = none → exec (.segreqId2 b) s = .next t →
    t.state = .sendSegment → t.cache.recs ≠ [] → t.seg ≠ 0x7FFFFF →
    u.fault = none → u.cache = t.cache → u.requestedId c = t.seg → exec (.segreqId2 c) u = .next v →
    v.queries = u.queries ∧ v.cache = t.cache ∧ v.state = .sendSegment

/-- R97's consequence (decision D10): after a failed request, a request for any id but the clock's asks the backend, the id cached
before included. -/
def Obligations.RequestAfterAFailureQueriesTheBackend : Prop :=
  ∀ (s t u v : State) (b c : Byte), s.fault = none → exec (.segreqId2 b) s = .next t → t.state = .idle →
    u.fault = none → u.cache = t.cache → u.requestedId c ≠ 0x7FFFFF → exec (.segreqId2 c) u = .next v →
    v.queries = u.queries ++ [u.requestedId c]

/-- R71, R75, R83, R95, R102: the failure kind of a backend answer (more than 65536 bytes: decision D9), and the codes R95 gives the
kinds (decision D29). -/
def Obligations.FailureKindOfAnAnswer : Prop :=
  (∀ (p : Params) (id : SegId),
    encodeAnswer p id .notFound = .error .notFound ∧
    encodeAnswer p id .tooLarge = .error .tooLarge ∧
    encodeAnswer p id .ioError = .error .ioError ∧
    (∀ (kind : PathKind) (bytes : List Byte), 65536 < bytes.length → encodeAnswer p id (.ok kind bytes) = .error .tooLarge) ∧
    (∀ bytes : List Byte, bytes.length ≤ 65536 → encodeAnswer p id (.ok .raw bytes) = .ok (rawRecords p id bytes)) ∧
    (∀ bytes : List Byte, bytes.length ≤ 65536 → encodeAnswer p id (.ok .container bytes) = passThrough p bytes)) ∧
  (∀ (p : Params) (bytes : List Byte) (kind : FailKind), passThrough p bytes = .error kind → kind = .malformedRecord) ∧
  failCode .notFound = 1 ∧ failCode .tooLarge = 2 ∧ failCode .ioError = 3 ∧ failCode .malformedRecord = 4

/-! ### The encoder (spec/42_pipeline.md, spec/20_memory.md) -/

/-- R80, with `HEADER_LAYOUT = nabu`: a raw record byte by byte, and the list of records. -/
def Obligations.RawRecordContents : Prop :=
  (∀ (p : Params) (id : SegId) (k o : Nat) (c : List Byte) (final : Bool), p.headerLayout = .nabu →
    rawRecord p id k o c final =
      let t : Byte := 0x20 ||| (if k = 0 then 0x81 else 0) ||| (if final = true then 0x10 else 0)
      let h : List Byte :=
        [id.extractLsb' 16 8, id.extractLsb' 8 8, id.extractLsb' 0 8,
          BitVec.ofNat 8 k,
          0x01,
          0x7F, 0xFF, 0xFF, 0xFF,
          0x7F, 0x80,
          t,
          BitVec.ofNat 8 k, BitVec.ofNat 8 (k / 256),
          BitVec.ofNat 8 (o / 256), BitVec.ofNat 8 o]
      let crc := crc16 p.crcTable (h ++ c)
      h ++ c ++ [crc.extractLsb' 8 8, crc.extractLsb' 0 8]) ∧
  (∀ (p : Params) (id : SegId) (bytes : List Byte) (k : Nat),
    (rawRecords p id bytes)[k]? =
      if 991 * k < bytes.length then
        some (rawRecord p id k (991 * k) ((bytes.drop (991 * k)).take 991) (decide (bytes.length ≤ 991 * (k + 1))))
      else none)

/-- R32's alternative order `HEADER_LAYOUT = doc6` of a raw record's header. -/
def Obligations.RawRecordContentsInTheOtherLayout : Prop :=
  ∀ (p : Params) (id : SegId) (k o : Nat) (c : List Byte) (final : Bool), p.headerLayout = .doc6 →
    rawRecord p id k o c final =
      let t : Byte := 0x20 ||| (if k = 0 then 0x81 else 0) ||| (if final = true then 0x10 else 0)
      let h : List Byte :=
        [id.extractLsb' 16 8, id.extractLsb' 8 8, id.extractLsb' 0 8,
          0x01,
          0x7F, 0xFF, 0xFF, 0xFF,
          0x7F, 0x80,
          BitVec.ofNat 8 k, BitVec.ofNat 8 (k / 256),
          BitVec.ofNat 8 k,
          t,
          BitVec.ofNat 8 (o / 256), BitVec.ofNat 8 o]
      let crc := crc16 p.crcTable (h ++ c)
      h ++ c ++ [crc.extractLsb' 8 8, crc.extractLsb' 0 8]

/-- R79, R81: `ceil(L / 991)` records (so the least `N` with `L ≤ 991 N`), every record but the last with 991 payload bytes, the last
with 1 to 991; an empty segment has none (decision D11). -/
def Obligations.RawRecordCountAndLengths : Prop :=
  ∀ (p : Params) (id : SegId) (bytes : List Byte),
    bytes.length ≤ 991 * (rawRecords p id bytes).length ∧
    (∀ n, bytes.length ≤ 991 * n → (rawRecords p id bytes).length ≤ n) ∧
    (∀ (k : Nat) (r : Record), (rawRecords p id bytes)[k]? = some r →
      r.length = 18 + min 991 (bytes.length - 991 * k) ∧ 19 ≤ r.length ∧ r.length ≤ 1009)

/-- R79: the payloads of the raw records, in order, are the segment's bytes: none is lost, repeated or reordered. -/
def Obligations.RawPayloadsAreTheSegment : Prop :=
  ∀ (p : Params) (id : SegId) (bytes : List Byte),
    (rawRecords p id bytes).flatMap (fun r => (r.drop 16).take (r.length - 18)) = bytes

/-- R33, R81: the type byte of every raw record: only the first has bits 0x80 and 0x01, only the last bit 0x10, all bit 0x20, no
other bit is set; it is at offset 11 (`nabu`) or 13 (`doc6`). -/
def Obligations.RawRecordTypeBytes : Prop :=
  ∀ (p : Params) (id : SegId) (bytes : List Byte) (k : Nat) (r : Record),
    (rawRecords p id bytes)[k]? = some r →
    r[(match p.headerLayout with | .nabu => 11 | .doc6 => 13)]? = some
      (if k = 0 then (if (rawRecords p id bytes).length = 1 then 0xB1 else 0xA1)
       else (if k + 1 = (rawRecords p id bytes).length then 0x30 else 0x20))

/-- R85, R52, with `HEADER_LAYOUT = nabu`: the clock segment is one record of 27 bytes. -/
def Obligations.ClockSegmentIsOneRecord : Prop :=
  ∀ (p : Params) (t : ClockTime), p.headerLayout = .nabu →
    clockRecords p t =
      let m : List Byte :=
        [0x7F, 0xFF, 0xFF, 0x00, 0x01, 0x7F, 0xFF, 0xFF, 0xFF, 0x7F, 0x80, 0xB1, 0x00, 0x00, 0x00, 0x00,
          0x02, 0x02, BitVec.ofNat 8 (t.weekday.toNat + 1), 0x54, t.month, t.day, t.hour, t.minute, t.second]
      [m ++ [(crc16 p.crcTable m).extractLsb' 8 8, (crc16 p.crcTable m).extractLsb' 0 8]]

/-- R87: the CRC of the empty sequence is the complement of the seed 0xFFFF, and one more byte shifts the running value left by 8 and
XORs in the table entry indexed by its high byte XOR the new byte. -/
def Obligations.CrcStepByStep : Prop :=
  ∀ (table : CrcTable), crc16 table [] = 0x0000 ∧
    ∀ (m : List Byte) (b : Byte),
      ~~~ (crc16 table (m ++ [b])) =
        ((~~~ (crc16 table m)) <<< 8) ^^^
          table[((~~~ (crc16 table m)).extractLsb' 8 8 ^^^ b).toNat]'(BitVec.isLt _)

/-- R86 (decision D7): the default table's spot values, and the check value of the default CRC. -/
def Obligations.DefaultCrcValues : Prop :=
  defaultCrcTable[0] = 0x0000 ∧ defaultCrcTable[1] = 0x1021 ∧ defaultCrcTable[2] = 0x2042 ∧ defaultCrcTable[255] = 0x1EF0 ∧
  crc16 defaultCrcTable [0x31, 0x32, 0x33, 0x34, 0x35, 0x36, 0x37, 0x38, 0x39] = 0xD64E

/-- R88: every record the encoder makes, on all three paths, ends in the CRC of the bytes before it, high byte first. -/
def Obligations.EveryEncodedRecordHoldsItsCrc : Prop :=
  ∀ (p : Params) (id : SegId) (r : Record),
    ((∃ bytes, r ∈ rawRecords p id bytes) ∨ (∃ t, r ∈ clockRecords p t) ∨
      (∃ bytes recs, passThrough p bytes = .ok recs ∧ r ∈ recs)) →
    r.drop (r.length - 2) =
      [(crc16 p.crcTable (r.take (r.length - 2))).extractLsb' 8 8, (crc16 p.crcTable (r.take (r.length - 2))).extractLsb' 0 8]

/-- R84: re-stamping replaces the last two bytes by the CRC of the others, and leaves a record whose CRC is right unchanged. -/
def Obligations.RestampChangesOnlyTheCrc : Prop :=
  ∀ (table : CrcTable) (r : Record), 2 ≤ r.length →
    restamp table r = r.take (r.length - 2) ++
      [(crc16 table (r.take (r.length - 2))).extractLsb' 8 8, (crc16 table (r.take (r.length - 2))).extractLsb' 0 8] ∧
    (crcHolds table r → restamp table r = r)

/-- R51, R82: reading a container whose blocks are records of 18 to 1009 bytes, none final, gives all of them re-stamped; with a final
record after them it gives them and the final one, and ignores the bytes after it. -/
def Obligations.PassThroughReadsItsContainer : Prop :=
  ∀ (p : Params) (recs : List Record),
    (∀ r ∈ recs, 18 ≤ r.length ∧ r.length ≤ 1009 ∧ isFinalRecord p.headerLayout r = false) →
    passThrough p (recs.flatMap fun r => [BitVec.ofNat 8 r.length, BitVec.ofNat 8 (r.length / 256)] ++ r) =
      .ok (recs.map (restamp p.crcTable)) ∧
    ∀ (f : Record) (tail : List Byte), 18 ≤ f.length → f.length ≤ 1009 → isFinalRecord p.headerLayout f = true →
      passThrough p
        ((recs.flatMap fun r => [BitVec.ofNat 8 r.length, BitVec.ofNat 8 (r.length / 256)] ++ r) ++
          [BitVec.ofNat 8 f.length, BitVec.ofNat 8 (f.length / 256)] ++ f ++ tail) =
        .ok (recs.map (restamp p.crcTable) ++ [restamp p.crcTable f])

/-- R83 (three of the four checks: decision D13): after any number of good blocks that are not final, a lone byte, or a block size
above 1009, below 18 or past the end of the input, fails the whole container. -/
def Obligations.PassThroughFailsOnAMalformedBlock : Prop :=
  ∀ (p : Params) (recs : List Record),
    (∀ r ∈ recs, 18 ≤ r.length ∧ r.length ≤ 1009 ∧ isFinalRecord p.headerLayout r = false) →
    (∀ x : Byte, passThrough p
      ((recs.flatMap fun r => [BitVec.ofNat 8 r.length, BitVec.ofNat 8 (r.length / 256)] ++ r) ++ [x]) =
        .error .malformedRecord) ∧
    (∀ (lo hi : Byte) (rest : List Byte),
      1009 < lo.toNat + 256 * hi.toNat ∨ lo.toNat + 256 * hi.toNat < 18 ∨ rest.length < lo.toNat + 256 * hi.toNat →
      passThrough p
        ((recs.flatMap fun r => [BitVec.ofNat 8 r.length, BitVec.ofNat 8 (r.length / 256)] ++ r) ++ lo :: hi :: rest) =
          .error .malformedRecord)

/-! ### The handshake (spec/41_argument_states.md R69, R70; spec/60_exceptions.md R98, R99) -/

/-- R69, R70, R98: the handshake. The expected 0x10 waits for the second byte; the expected 0x06 starts the Pacer on record `pkt` and
emits nothing; any other byte aborts silently and is consumed (decision D17). -/
def Obligations.HandshakeBytes : Prop :=
  ∀ (s : State) (b : Byte), s.fault = none →
    exec .hs1 s = .next { s with substep := s.substep + 1 } ∧
    exec (.hs1Abort b) s = .next { s with state := .idle, substep := 0 } ∧
    (s.pkt.toNat < s.cache.recs.length →
      exec .hs2 s = .next { s with
        pz := { active := true, idx := s.pkt, cursor := 0 }, state := .idle, substep := 0 }) ∧
    exec (.hs2Abort b) s = .next { s with state := .idle, substep := 0 }

/-- R70, R99 (decision D12): a packet index that names no record raises the model fault, and nothing else changes. -/
def Obligations.PacketIndexOutOfRangeFault : Prop :=
  ∀ s : State, s.fault = none → s.cache.recs.length ≤ s.pkt.toNat →
    exec .hs2 s = .next { s with fault := some (.packetIndexOutOfRange s.pkt s.cache.recs.length) }

/-! ### The Pacer (spec/43_pacer.md) -/

/-- R90, R91, R92: a tick of an inactive Pacer is a no-op; a tick of an active one sends the record byte at the cursor, 0x10 twice,
and moves the cursor by one; at the end of the record it sends the terminator and the Pacer stops with its cursor kept. Each tick is
decoded as its rule's condition says. One cursor position per tick, and the terminator in a tick of its own, are decision D15. -/
def Obligations.TicksOfThePacer : Prop :=
  ∀ s : State, s.fault = none →
    (s.pz.active = false → decode (.tick s.pacerPhase) = .ok .tickIdle) ∧
    exec .tickIdle s = .next s ∧
    (∀ (r : Record) (b : Byte), s.cache.recs[s.pz.idx.toNat]? = some r → r[s.pz.cursor.toNat]? = some b →
      (s.pz.active = true → decode (.tick s.pacerPhase) = .ok .tickData) ∧
      exec .tickData s = .next { s with
        tx := s.tx ++ (if b = 0x10 then [0x10, 0x10] else [b])
        pz := { s.pz with cursor := s.pz.cursor + 1 } }) ∧
    (∀ r : Record, s.cache.recs[s.pz.idx.toNat]? = some r → s.pz.cursor.toNat = r.length → s.pz.active = true →
      decode (.tick s.pacerPhase) = .ok .tickEnd) ∧
    exec .tickEnd s = .next { s with tx := s.tx ++ [0x10, 0xE1], pz := { s.pz with active := false } }

/-- The model's choice (log entry 8): TICK_DATA where the record store has no such byte, which no decoded tick meets, stops with a
named fault; R31 says the address does not exist. -/
def Obligations.DataTickWithoutAByteStops : Prop :=
  ∀ s : State, s.fault = none → s.cache.recs.readByte s.pz.idx.toNat s.pz.cursor.toNat = none →
    exec .tickData s = .fault (.recordByteAbsent s.pz.idx s.pz.cursor.toNat)

/-- R94, R89 (cadence: decision D15), R50: an uncancelled run of a record of `n` bytes takes exactly `n + 1` active ticks, sends every
byte of the record in order with each 0x10 doubled, then `10 E1`: `n + k + 2` bytes when `k` bytes are 0x10. -/
def Obligations.UncancelledRunSendsTheEscapedRecord : Prop :=
  ∀ (s : State) (r : Record) (rest : List Event),
    s.fault = none → s.pz.active = true → s.pz.cursor = 0 →
    s.cache.recs[s.pz.idx.toNat]? = some r → r.length ≤ 1009 →
    s.inbox = List.replicate (r.length + 1) .tick ++ rest →
    s.run (r.length + 1) = .next { s with
      tx := s.tx ++ (r.flatMap fun b => if b = 0x10 then [0x10, 0x10] else [b]) ++ [0x10, 0xE1]
      pz := { active := false, idx := s.pz.idx, cursor := BitVec.ofNat 11 r.length }
      inbox := rest } ∧
    (r.flatMap fun b => if b = (0x10 : Byte) then [0x10, 0x10] else [b]).length = r.length + r.count 0x10

/-- R50, R119: the receiver recovers the record: two escaped records, each followed by the terminator and anything, are equal only if
the records and what follows are. -/
def Obligations.EscapedRecordIsRecoverable : Prop :=
  ∀ (r r' : Record) (x y : List Byte),
    escapeRecord r ++ [0x10, 0xE1] ++ x = escapeRecord r' ++ [0x10, 0xE1] ++ y → r = r' ∧ x = y

/-! ### Frames: what an instruction leaves unchanged when it answers a next state -/

/-- The command bytes change only `state`, `substep` and the stream; SEGREQ also the Pacer's `active` and `cursor`. -/
def Obligations.CommandFrame : Prop :=
  ∀ (i : Instr) (s t : State),
    (i = .chan ∨ i = .segreq ∨ i = .cmd83 ∨ i = .getstat ∨ i = .setstat ∨ ∃ b, i = .ignore b) →
    exec i s = .next t →
    t.chan = s.chan ∧ t.pkt = s.pkt ∧ t.seg = s.seg ∧ t.cache = s.cache ∧ s.sameRecordBytes t ∧
    t.pz.idx = s.pz.idx ∧ (i ≠ .segreq → t.pz = s.pz) ∧ t.fault = s.fault ∧
    t.queries = s.queries ∧ t.clockReads = s.clockReads ∧ t.params = s.params ∧ t.inbox = s.inbox ∧
    t.backendAnswers = s.backendAnswers ∧ t.clockAnswers = s.clockAnswers

/-- The argument bytes but the last segment id byte change only `state`, `substep` and the stream, and besides: the channel bytes
`chan`, the packet index byte `pkt`, the segment id bytes `seg`. No byte of the record store changes and the Pacer is not touched. -/
def Obligations.ArgumentFrame : Prop :=
  ∀ (i : Instr) (b : Byte) (s t : State),
    (i = .chanA0 b ∨ i = .chanA1 b ∨ i = .setstatD0 b ∨ i = .setstatD1 b ∨ i = .getstatQ01 ∨ i = .getstatQother b ∨
      i = .segreqPkt b ∨ i = .segreqId0 b ∨ i = .segreqId1 b) →
    exec i s = .next t →
    (i ≠ .chanA0 b → i ≠ .chanA1 b → t.chan = s.chan) ∧
    (i ≠ .segreqPkt b → t.pkt = s.pkt) ∧
    (i ≠ .segreqId0 b → i ≠ .segreqId1 b → t.seg = s.seg) ∧
    t.cache = s.cache ∧ s.sameRecordBytes t ∧ t.pz = s.pz ∧ t.fault = s.fault ∧
    t.queries = s.queries ∧ t.clockReads = s.clockReads ∧ t.params = s.params ∧ t.inbox = s.inbox ∧
    t.backendAnswers = s.backendAnswers ∧ t.clockAnswers = s.clockAnswers

/-- The last segment id byte leaves `chan`, `pkt`, the low 16 bits of `seg`, the Pacer, the fault, the parameters and the inbox; on
a cache hit every byte of the record store is as it was (on a miss the store is replaced or emptied, as ClockSegmentRequest,
RawSegmentRequest, ContainerSegmentRequest and FailedSegmentRequest say). -/
def Obligations.LastSegmentByteFrame : Prop :=
  ∀ (b : Byte) (s t : State), exec (.segreqId2 b) s = .next t →
    t.chan = s.chan ∧ t.pkt = s.pkt ∧ t.seg.extractLsb' 0 16 = s.seg.extractLsb' 0 16 ∧
    t.pz = s.pz ∧ t.fault = s.fault ∧ t.params = s.params ∧ t.inbox = s.inbox ∧
    (s.cache.id = some (s.requestedId b) → s.cache.recs ≠ [] → s.requestedId b ≠ 0x7FFFFF →
      t.cache = s.cache ∧ s.sameRecordBytes t) ∧
    (t.clockReads = s.clockReads → t.clockAnswers = s.clockAnswers) ∧
    (t.queries = s.queries → t.backendAnswers = s.backendAnswers)

/-- The handshake bytes change only `state` and `substep`; the second, when it is the expected one, the Pacer or the fault. Nothing is
emitted and no byte of the record store changes (R98). -/
def Obligations.HandshakeFrame : Prop :=
  ∀ (i : Instr) (b : Byte) (s t : State),
    (i = .hs1 ∨ i = .hs1Abort b ∨ i = .hs2 ∨ i = .hs2Abort b) → exec i s = .next t →
    t.chan = s.chan ∧ t.pkt = s.pkt ∧ t.seg = s.seg ∧ t.cache = s.cache ∧ s.sameRecordBytes t ∧ t.tx = s.tx ∧
    (i ≠ .hs2 → t.pz = s.pz ∧ t.fault = s.fault) ∧
    t.queries = s.queries ∧ t.clockReads = s.clockReads ∧ t.params = s.params ∧ t.inbox = s.inbox ∧
    t.backendAnswers = s.backendAnswers ∧ t.clockAnswers = s.clockAnswers

/-- The ticks change only the stream and the Pacer: the protocol state is neither read nor changed (R92), the cache is as it was. -/
def Obligations.TickFrame : Prop :=
  ∀ (i : Instr) (s t : State), (i = .tickIdle ∨ i = .tickData ∨ i = .tickEnd) → exec i s = .next t →
    t.state = s.state ∧ t.substep = s.substep ∧ t.chan = s.chan ∧ t.pkt = s.pkt ∧ t.seg = s.seg ∧
    t.cache = s.cache ∧ s.sameRecordBytes t ∧ t.pz.idx = s.pz.idx ∧ (i ≠ .tickEnd → t.pz.active = s.pz.active) ∧
    (i ≠ .tickData → t.pz.cursor = s.pz.cursor) ∧ t.fault = s.fault ∧
    t.queries = s.queries ∧ t.clockReads = s.clockReads ∧ t.params = s.params ∧ t.inbox = s.inbox ∧
    t.backendAnswers = s.backendAnswers ∧ t.clockAnswers = s.clockAnswers
end

