-- ==== Sys2Proof/Laws/Record.lean ====
section
/-! SUPPORT. What the record, CRC and encoder functions give: lengths, contents, and the CRC of every record they build. -/

namespace Sys2Proof.Machine

/-! ### Byte splitting -/

@[simp] theorem bigEndian_length (v : Word16) : (bigEndian v).length = 2 := rfl

@[simp] theorem littleEndian_length (v : Word16) : (littleEndian v).length = 2 := rfl

@[simp] theorem segIdBytes_length (id : SegId) : (segIdBytes id).length = 3 := rfl

@[simp] theorem headerBytes_length (layout : HeaderLayout) (id : SegId) (k o : Nat) (t : Byte) :
    (headerBytes layout id k o t).length = 16 := by
  cases layout <;> rfl

/-- A size written little-endian is read back (spec/42_pipeline.md R82). -/
theorem blockSize_littleEndian {n : Nat} (h : n < 65536) :
    blockSize (lowByte (BitVec.ofNat 16 n)) (highByte (BitVec.ofNat 16 n)) = n := by
  simp only [blockSize, lowByte, highByte, BitVec.extractLsb'_toNat, BitVec.toNat_ofNat, Nat.shiftRight_eq_div_pow]
  omega

/-! ### Records with a CRC -/

@[simp] theorem withCrc_length (table : CrcTable) (m : List Byte) : (withCrc table m).length = m.length + 2 := by
  simp [withCrc]

/-- A record built with its CRC satisfies the CRC rule (spec/42_pipeline.md R88). -/
theorem crcHolds_withCrc (table : CrcTable) (m : List Byte) : crcHolds table (withCrc table m) := by
  simp [crcHolds, withCrc, crcLength]

@[simp] theorem rawRecord_length (p : Params) (id : SegId) (k o : Nat) (c : List Byte) (final : Bool) :
    (rawRecord p id k o c final).length = c.length + 18 := by
  simp [rawRecord]; omega

/-! ### Writing bytes and re-stamping -/

@[simp] theorem writeBytes_length (r : Record) (off : Nat) (v : List Byte) : (writeBytes r off v).length = r.length := by
  induction v generalizing r off with
  | nil => rfl
  | cons b bs ih => simp [writeBytes, ih]

@[simp] theorem restamp_length (table : CrcTable) (r : Record) : (restamp table r).length = r.length := by
  simp [restamp]

/-- Re-stamping keeps all bytes but the last two (spec/42_pipeline.md R84). -/
theorem restamp_eq_withCrc (table : CrcTable) {r : Record} (h : 2 ≤ r.length) :
    restamp table r = withCrc table (r.take (r.length - 2)) := by
  have hlen : (r.drop (r.length - 2)).length = 2 := by simp; omega
  match hd : r.drop (r.length - 2), hlen with
  | [x, y], _ =>
    have hr : r = r.take (r.length - 2) ++ [x, y] := by rw [← hd, List.take_append_drop]
    have ht : (r.take (r.length - 2)).length = r.length - 2 := by simp
    generalize r.take (r.length - 2) = m at hr ht
    subst hr
    simp [restamp, withCrc, bigEndian, writeBytes, crcLength]

theorem crcHolds_restamp (table : CrcTable) {r : Record} (h : 2 ≤ r.length) : crcHolds table (restamp table r) := by
  rw [restamp_eq_withCrc table h]; exact crcHolds_withCrc table _

/-- Re-stamping does not touch the header (spec/42_pipeline.md R84). -/
theorem restamp_getElem? (table : CrcTable) {r : Record} {k : Nat} (h : k + 2 < r.length) :
    (restamp table r)[k]? = r[k]? := by
  rw [restamp_eq_withCrc table (by omega), withCrc, List.getElem?_append_left (by simp; omega),
    List.getElem?_take_of_lt (by omega)]

/-- So a record of 18 bytes or more is final exactly when it was final before (spec/42_pipeline.md R82). -/
theorem isFinalRecord_restamp (table : CrcTable) (layout : HeaderLayout) {r : Record} (h : 18 ≤ r.length) :
    isFinalRecord layout (restamp table r) = isFinalRecord layout r := by
  unfold isFinalRecord
  rw [restamp_getElem?]
  cases layout <;> simp [typeOffset] <;> omega

/-! ### The raw path -/

/-- A chunk's index is below the count exactly when the chunk starts inside the segment (spec/42_pipeline.md R79). -/
theorem lt_chunkCount_iff {k n : Nat} : k < chunkCount n ↔ 991 * k < n := by
  simp only [chunkCount, maxPayload]; omega

theorem chunk_length (bytes : List Byte) (k : Nat) : (chunk bytes k).length = min 991 (bytes.length - 991 * k) := by
  simp [chunk, maxPayload]

@[simp] theorem rawRecords_length (p : Params) (id : SegId) (bytes : List Byte) :
    (rawRecords p id bytes).length = chunkCount bytes.length := by
  simp [rawRecords]

theorem mem_rawRecords {p : Params} {id : SegId} {bytes : List Byte} {r : Record} (h : r ∈ rawRecords p id bytes) :
    ∃ k < chunkCount bytes.length, r = rawRecord p id k (991 * k) (chunk bytes k) (k + 1 == chunkCount bytes.length) := by
  simp only [rawRecords, List.mem_map, List.mem_range] at h
  obtain ⟨k, hk, rfl⟩ := h
  exact ⟨k, hk, rfl⟩

theorem crcHolds_rawRecords {p : Params} {id : SegId} {bytes : List Byte} {r : Record}
    (h : r ∈ rawRecords p id bytes) : crcHolds p.crcTable r := by
  obtain ⟨k, -, rfl⟩ := mem_rawRecords h
  exact crcHolds_withCrc _ _

theorem rawRecords_wf (p : Params) (id : SegId) (bytes : List Byte) : Memory.wf (rawRecords p id bytes) = true := by
  simp only [Memory.wf, List.all_eq_true, Bool.and_eq_true, decide_eq_true_eq]
  intro r hr
  obtain ⟨k, hk, rfl⟩ := mem_rawRecords hr
  rw [lt_chunkCount_iff] at hk
  simp only [rawRecord_length, chunk_length, minRecord, headerLength, crcLength, maxRecord]
  omega

@[simp] theorem clockRecords_length (p : Params) (t : ClockTime) : (clockRecords p t).length = 1 := by
  simp [clockRecords, clockPayload, chunkCount, maxPayload]

/-! ### The pass-through path -/

/-- What the pass-through loop can do with a whole block in front of it: fail on its size, stop at a final record, or go on. -/
theorem passThroughFrom_block (p : Params) (fuel : Nat) (lo hi : Byte) (rest : List Byte) :
    passThroughFrom p (fuel + 1) (lo :: hi :: rest) =
      if malformedSize (blockSize lo hi) rest.length then .error .malformedRecord
      else if isFinalRecord p.headerLayout (restamp p.crcTable (rest.take (blockSize lo hi))) then
        .ok [restamp p.crcTable (rest.take (blockSize lo hi))]
      else
        match passThroughFrom p fuel (rest.drop (blockSize lo hi)) with
        | .ok recs => .ok (restamp p.crcTable (rest.take (blockSize lo hi)) :: recs)
        | .error k => .error k := rfl

theorem malformedSize_eq_false {s left : Nat} : malformedSize s left = false ↔ 18 ≤ s ∧ s ≤ 1009 ∧ s ≤ left := by
  simp only [malformedSize, Bool.or_eq_false_iff, decide_eq_false_iff_not, Nat.not_lt]
  simp only [maxRecord, minRecord, headerLength, crcLength]
  omega

/-- Fuel beyond the input's length changes nothing. -/
theorem passThroughFrom_fuel (p : Params) : ∀ (fuel : Nat) (bytes : List Byte), bytes.length ≤ fuel →
    passThroughFrom p fuel bytes = passThrough p bytes := by
  have step : ∀ (fuel : Nat) (bytes : List Byte), bytes.length ≤ fuel →
      passThroughFrom p (fuel + 1) bytes = passThroughFrom p fuel bytes := by
    intro fuel
    induction fuel with
    | zero =>
      intro bytes h
      match bytes, h with
      | [], _ => rfl
    | succ n ih =>
      intro bytes h
      match bytes, h with
      | [], _ => rfl
      | [_], _ => rfl
      | lo :: hi :: rest, h =>
        rw [passThroughFrom_block, passThroughFrom_block, ih _ (by simp at h ⊢; omega)]
  intro fuel
  induction fuel with
  | zero =>
    intro bytes h
    match bytes, h with
    | [], _ => rfl
  | succ n ih =>
    intro bytes h
    by_cases hb : bytes.length = n + 1
    · rw [passThrough, hb]
    · rw [step n bytes (by omega), ih bytes (by omega)]

/-- The loop on a whole block (spec/42_pipeline.md R82). -/
theorem passThrough_block (p : Params) (lo hi : Byte) (rest : List Byte) :
    passThrough p (lo :: hi :: rest) =
      if malformedSize (blockSize lo hi) rest.length then .error .malformedRecord
      else if isFinalRecord p.headerLayout (restamp p.crcTable (rest.take (blockSize lo hi))) then
        .ok [restamp p.crcTable (rest.take (blockSize lo hi))]
      else
        match passThrough p (rest.drop (blockSize lo hi)) with
        | .ok recs => .ok (restamp p.crcTable (rest.take (blockSize lo hi)) :: recs)
        | .error k => .error k := by
  rw [passThrough, List.length_cons, passThroughFrom_block, passThroughFrom_fuel p _ _ (by simp; omega)]

/-- Every record a container gives has a legal length and its CRC (spec/20_memory.md R34, spec/42_pipeline.md R84, R88). -/
theorem passThroughFrom_records {p : Params} : ∀ {fuel : Nat} {bytes : List Byte} {recs : List Record},
    passThroughFrom p fuel bytes = .ok recs →
    ∀ r ∈ recs, (18 ≤ r.length ∧ r.length ≤ 1009) ∧ crcHolds p.crcTable r := by
  intro fuel
  induction fuel with
  | zero => intro bytes recs h; cases h; simp
  | succ n ih =>
    intro bytes recs h
    match bytes, h with
    | [], h => cases h; simp
    | [_], h => cases h
    | lo :: hi :: rest, h =>
      rw [passThroughFrom_block] at h
      split at h
      · cases h
      rename_i hs
      rw [Bool.not_eq_true, malformedSize_eq_false] at hs
      have hhead : (18 ≤ (restamp p.crcTable (rest.take (blockSize lo hi))).length ∧
          (restamp p.crcTable (rest.take (blockSize lo hi))).length ≤ 1009) ∧
          crcHolds p.crcTable (restamp p.crcTable (rest.take (blockSize lo hi))) := by
        refine ⟨?_, crcHolds_restamp _ ?_⟩ <;> simp <;> omega
      split at h
      · cases h; simpa using hhead
      · split at h
        · rename_i tail htail
          cases h
          intro r hr
          rcases List.mem_cons.1 hr with rfl | hr
          · exact hhead
          · exact ih htail r hr
        · cases h

theorem passThrough_wf {p : Params} {bytes : List Byte} {recs : List Record} (h : passThrough p bytes = .ok recs) :
    Memory.wf recs = true := by
  simp only [Memory.wf, List.all_eq_true, Bool.and_eq_true, decide_eq_true_eq]
  intro r hr
  exact (passThroughFrom_records h r hr).1

theorem crcHolds_passThrough {p : Params} {bytes : List Byte} {recs : List Record} (h : passThrough p bytes = .ok recs)
    {r : Record} (hr : r ∈ recs) : crcHolds p.crcTable r := (passThroughFrom_records h r hr).2

/-! ### What the Pacer sends -/

@[simp] theorem escapeRecord_nil : escapeRecord [] = [] := rfl

@[simp] theorem escapeRecord_cons (b : Byte) (r : Record) : escapeRecord (b :: r) = escapeByte b ++ escapeRecord r := by
  simp [escapeRecord]

end Sys2Proof.Machine
end

