-- ==== Sys2Proof/Laws/State.lean ====
section
/-! SUPPORT. One lemma per field per update of the state, so that no later proof unfolds a record update. -/

namespace Sys2Proof.Machine

variable (s : State)

/-! ### emit -/

@[simp] theorem State.emit_state (l : List Byte) : (s.emit l).state = s.state := rfl
@[simp] theorem State.emit_substep (l : List Byte) : (s.emit l).substep = s.substep := rfl
@[simp] theorem State.emit_chan (l : List Byte) : (s.emit l).chan = s.chan := rfl
@[simp] theorem State.emit_pkt (l : List Byte) : (s.emit l).pkt = s.pkt := rfl
@[simp] theorem State.emit_seg (l : List Byte) : (s.emit l).seg = s.seg := rfl
@[simp] theorem State.emit_cache (l : List Byte) : (s.emit l).cache = s.cache := rfl
@[simp] theorem State.emit_pz (l : List Byte) : (s.emit l).pz = s.pz := rfl
@[simp] theorem State.emit_fault (l : List Byte) : (s.emit l).fault = s.fault := rfl
@[simp] theorem State.emit_tx (l : List Byte) : (s.emit l).tx = s.tx ++ l := rfl
@[simp] theorem State.emit_queries (l : List Byte) : (s.emit l).queries = s.queries := rfl
@[simp] theorem State.emit_clockReads (l : List Byte) : (s.emit l).clockReads = s.clockReads := rfl
@[simp] theorem State.emit_params (l : List Byte) : (s.emit l).params = s.params := rfl
@[simp] theorem State.emit_inbox (l : List Byte) : (s.emit l).inbox = s.inbox := rfl
@[simp] theorem State.emit_backendAnswers (l : List Byte) : (s.emit l).backendAnswers = s.backendAnswers := rfl
@[simp] theorem State.emit_clockAnswers (l : List Byte) : (s.emit l).clockAnswers = s.clockAnswers := rfl

/-! ### enter -/

@[simp] theorem State.enter_state (p : ProtoState) : (s.enter p).state = p := rfl
@[simp] theorem State.enter_substep (p : ProtoState) : (s.enter p).substep = 0 := rfl
@[simp] theorem State.enter_chan (p : ProtoState) : (s.enter p).chan = s.chan := rfl
@[simp] theorem State.enter_pkt (p : ProtoState) : (s.enter p).pkt = s.pkt := rfl
@[simp] theorem State.enter_seg (p : ProtoState) : (s.enter p).seg = s.seg := rfl
@[simp] theorem State.enter_cache (p : ProtoState) : (s.enter p).cache = s.cache := rfl
@[simp] theorem State.enter_pz (p : ProtoState) : (s.enter p).pz = s.pz := rfl
@[simp] theorem State.enter_fault (p : ProtoState) : (s.enter p).fault = s.fault := rfl
@[simp] theorem State.enter_tx (p : ProtoState) : (s.enter p).tx = s.tx := rfl
@[simp] theorem State.enter_queries (p : ProtoState) : (s.enter p).queries = s.queries := rfl
@[simp] theorem State.enter_clockReads (p : ProtoState) : (s.enter p).clockReads = s.clockReads := rfl
@[simp] theorem State.enter_params (p : ProtoState) : (s.enter p).params = s.params := rfl
@[simp] theorem State.enter_inbox (p : ProtoState) : (s.enter p).inbox = s.inbox := rfl
@[simp] theorem State.enter_backendAnswers (p : ProtoState) : (s.enter p).backendAnswers = s.backendAnswers := rfl
@[simp] theorem State.enter_clockAnswers (p : ProtoState) : (s.enter p).clockAnswers = s.clockAnswers := rfl

/-! ### advance -/

@[simp] theorem State.advance_state : s.advance.state = s.state := rfl
@[simp] theorem State.advance_substep : s.advance.substep = s.substep + 1 := rfl
@[simp] theorem State.advance_chan : s.advance.chan = s.chan := rfl
@[simp] theorem State.advance_pkt : s.advance.pkt = s.pkt := rfl
@[simp] theorem State.advance_seg : s.advance.seg = s.seg := rfl
@[simp] theorem State.advance_cache : s.advance.cache = s.cache := rfl
@[simp] theorem State.advance_pz : s.advance.pz = s.pz := rfl
@[simp] theorem State.advance_fault : s.advance.fault = s.fault := rfl
@[simp] theorem State.advance_tx : s.advance.tx = s.tx := rfl
@[simp] theorem State.advance_queries : s.advance.queries = s.queries := rfl
@[simp] theorem State.advance_clockReads : s.advance.clockReads = s.clockReads := rfl
@[simp] theorem State.advance_params : s.advance.params = s.params := rfl
@[simp] theorem State.advance_inbox : s.advance.inbox = s.inbox := rfl
@[simp] theorem State.advance_backendAnswers : s.advance.backendAnswers = s.backendAnswers := rfl
@[simp] theorem State.advance_clockAnswers : s.advance.clockAnswers = s.clockAnswers := rfl

/-! ### setChan -/

@[simp] theorem State.setChan_state (v : Word16) : (s.setChan v).state = s.state := rfl
@[simp] theorem State.setChan_substep (v : Word16) : (s.setChan v).substep = s.substep := rfl
@[simp] theorem State.setChan_chan (v : Word16) : (s.setChan v).chan = v := rfl
@[simp] theorem State.setChan_pkt (v : Word16) : (s.setChan v).pkt = s.pkt := rfl
@[simp] theorem State.setChan_seg (v : Word16) : (s.setChan v).seg = s.seg := rfl
@[simp] theorem State.setChan_cache (v : Word16) : (s.setChan v).cache = s.cache := rfl
@[simp] theorem State.setChan_pz (v : Word16) : (s.setChan v).pz = s.pz := rfl
@[simp] theorem State.setChan_fault (v : Word16) : (s.setChan v).fault = s.fault := rfl
@[simp] theorem State.setChan_tx (v : Word16) : (s.setChan v).tx = s.tx := rfl
@[simp] theorem State.setChan_queries (v : Word16) : (s.setChan v).queries = s.queries := rfl
@[simp] theorem State.setChan_clockReads (v : Word16) : (s.setChan v).clockReads = s.clockReads := rfl
@[simp] theorem State.setChan_params (v : Word16) : (s.setChan v).params = s.params := rfl
@[simp] theorem State.setChan_inbox (v : Word16) : (s.setChan v).inbox = s.inbox := rfl
@[simp] theorem State.setChan_backendAnswers (v : Word16) : (s.setChan v).backendAnswers = s.backendAnswers := rfl
@[simp] theorem State.setChan_clockAnswers (v : Word16) : (s.setChan v).clockAnswers = s.clockAnswers := rfl

/-! ### setPkt -/

@[simp] theorem State.setPkt_state (v : Byte) : (s.setPkt v).state = s.state := rfl
@[simp] theorem State.setPkt_substep (v : Byte) : (s.setPkt v).substep = s.substep := rfl
@[simp] theorem State.setPkt_chan (v : Byte) : (s.setPkt v).chan = s.chan := rfl
@[simp] theorem State.setPkt_pkt (v : Byte) : (s.setPkt v).pkt = v := rfl
@[simp] theorem State.setPkt_seg (v : Byte) : (s.setPkt v).seg = s.seg := rfl
@[simp] theorem State.setPkt_cache (v : Byte) : (s.setPkt v).cache = s.cache := rfl
@[simp] theorem State.setPkt_pz (v : Byte) : (s.setPkt v).pz = s.pz := rfl
@[simp] theorem State.setPkt_fault (v : Byte) : (s.setPkt v).fault = s.fault := rfl
@[simp] theorem State.setPkt_tx (v : Byte) : (s.setPkt v).tx = s.tx := rfl
@[simp] theorem State.setPkt_queries (v : Byte) : (s.setPkt v).queries = s.queries := rfl
@[simp] theorem State.setPkt_clockReads (v : Byte) : (s.setPkt v).clockReads = s.clockReads := rfl
@[simp] theorem State.setPkt_params (v : Byte) : (s.setPkt v).params = s.params := rfl
@[simp] theorem State.setPkt_inbox (v : Byte) : (s.setPkt v).inbox = s.inbox := rfl
@[simp] theorem State.setPkt_backendAnswers (v : Byte) : (s.setPkt v).backendAnswers = s.backendAnswers := rfl
@[simp] theorem State.setPkt_clockAnswers (v : Byte) : (s.setPkt v).clockAnswers = s.clockAnswers := rfl

/-! ### setSeg -/

@[simp] theorem State.setSeg_state (v : SegId) : (s.setSeg v).state = s.state := rfl
@[simp] theorem State.setSeg_substep (v : SegId) : (s.setSeg v).substep = s.substep := rfl
@[simp] theorem State.setSeg_chan (v : SegId) : (s.setSeg v).chan = s.chan := rfl
@[simp] theorem State.setSeg_pkt (v : SegId) : (s.setSeg v).pkt = s.pkt := rfl
@[simp] theorem State.setSeg_seg (v : SegId) : (s.setSeg v).seg = v := rfl
@[simp] theorem State.setSeg_cache (v : SegId) : (s.setSeg v).cache = s.cache := rfl
@[simp] theorem State.setSeg_pz (v : SegId) : (s.setSeg v).pz = s.pz := rfl
@[simp] theorem State.setSeg_fault (v : SegId) : (s.setSeg v).fault = s.fault := rfl
@[simp] theorem State.setSeg_tx (v : SegId) : (s.setSeg v).tx = s.tx := rfl
@[simp] theorem State.setSeg_queries (v : SegId) : (s.setSeg v).queries = s.queries := rfl
@[simp] theorem State.setSeg_clockReads (v : SegId) : (s.setSeg v).clockReads = s.clockReads := rfl
@[simp] theorem State.setSeg_params (v : SegId) : (s.setSeg v).params = s.params := rfl
@[simp] theorem State.setSeg_inbox (v : SegId) : (s.setSeg v).inbox = s.inbox := rfl
@[simp] theorem State.setSeg_backendAnswers (v : SegId) : (s.setSeg v).backendAnswers = s.backendAnswers := rfl
@[simp] theorem State.setSeg_clockAnswers (v : SegId) : (s.setSeg v).clockAnswers = s.clockAnswers := rfl

/-! ### replaceCache -/

@[simp] theorem State.replaceCache_state (id : SegId) (recs : List Record) : (s.replaceCache id recs).state = s.state := rfl
@[simp] theorem State.replaceCache_substep (id : SegId) (recs : List Record) : (s.replaceCache id recs).substep = s.substep := rfl
@[simp] theorem State.replaceCache_chan (id : SegId) (recs : List Record) : (s.replaceCache id recs).chan = s.chan := rfl
@[simp] theorem State.replaceCache_pkt (id : SegId) (recs : List Record) : (s.replaceCache id recs).pkt = s.pkt := rfl
@[simp] theorem State.replaceCache_seg (id : SegId) (recs : List Record) : (s.replaceCache id recs).seg = s.seg := rfl
@[simp] theorem State.replaceCache_cache (id : SegId) (recs : List Record) : (s.replaceCache id recs).cache = ⟨some id, recs⟩ := rfl
@[simp] theorem State.replaceCache_pz (id : SegId) (recs : List Record) : (s.replaceCache id recs).pz = s.pz := rfl
@[simp] theorem State.replaceCache_fault (id : SegId) (recs : List Record) : (s.replaceCache id recs).fault = s.fault := rfl
@[simp] theorem State.replaceCache_tx (id : SegId) (recs : List Record) : (s.replaceCache id recs).tx = s.tx := rfl
@[simp] theorem State.replaceCache_queries (id : SegId) (recs : List Record) : (s.replaceCache id recs).queries = s.queries := rfl
@[simp] theorem State.replaceCache_clockReads (id : SegId) (recs : List Record) : (s.replaceCache id recs).clockReads = s.clockReads := rfl
@[simp] theorem State.replaceCache_params (id : SegId) (recs : List Record) : (s.replaceCache id recs).params = s.params := rfl
@[simp] theorem State.replaceCache_inbox (id : SegId) (recs : List Record) : (s.replaceCache id recs).inbox = s.inbox := rfl
@[simp] theorem State.replaceCache_backendAnswers (id : SegId) (recs : List Record) : (s.replaceCache id recs).backendAnswers = s.backendAnswers := rfl
@[simp] theorem State.replaceCache_clockAnswers (id : SegId) (recs : List Record) : (s.replaceCache id recs).clockAnswers = s.clockAnswers := rfl

/-! ### invalidate -/

@[simp] theorem State.invalidate_state : s.invalidate.state = s.state := rfl
@[simp] theorem State.invalidate_substep : s.invalidate.substep = s.substep := rfl
@[simp] theorem State.invalidate_chan : s.invalidate.chan = s.chan := rfl
@[simp] theorem State.invalidate_pkt : s.invalidate.pkt = s.pkt := rfl
@[simp] theorem State.invalidate_seg : s.invalidate.seg = s.seg := rfl
@[simp] theorem State.invalidate_cache : s.invalidate.cache = ⟨none, []⟩ := rfl
@[simp] theorem State.invalidate_pz : s.invalidate.pz = s.pz := rfl
@[simp] theorem State.invalidate_fault : s.invalidate.fault = s.fault := rfl
@[simp] theorem State.invalidate_tx : s.invalidate.tx = s.tx := rfl
@[simp] theorem State.invalidate_queries : s.invalidate.queries = s.queries := rfl
@[simp] theorem State.invalidate_clockReads : s.invalidate.clockReads = s.clockReads := rfl
@[simp] theorem State.invalidate_params : s.invalidate.params = s.params := rfl
@[simp] theorem State.invalidate_inbox : s.invalidate.inbox = s.inbox := rfl
@[simp] theorem State.invalidate_backendAnswers : s.invalidate.backendAnswers = s.backendAnswers := rfl
@[simp] theorem State.invalidate_clockAnswers : s.invalidate.clockAnswers = s.clockAnswers := rfl

/-! ### startPacer -/

@[simp] theorem State.startPacer_state (k : BitVec 8) : (s.startPacer k).state = s.state := rfl
@[simp] theorem State.startPacer_substep (k : BitVec 8) : (s.startPacer k).substep = s.substep := rfl
@[simp] theorem State.startPacer_chan (k : BitVec 8) : (s.startPacer k).chan = s.chan := rfl
@[simp] theorem State.startPacer_pkt (k : BitVec 8) : (s.startPacer k).pkt = s.pkt := rfl
@[simp] theorem State.startPacer_seg (k : BitVec 8) : (s.startPacer k).seg = s.seg := rfl
@[simp] theorem State.startPacer_cache (k : BitVec 8) : (s.startPacer k).cache = s.cache := rfl
@[simp] theorem State.startPacer_pz (k : BitVec 8) : (s.startPacer k).pz = ⟨true, k, 0⟩ := rfl
@[simp] theorem State.startPacer_fault (k : BitVec 8) : (s.startPacer k).fault = s.fault := rfl
@[simp] theorem State.startPacer_tx (k : BitVec 8) : (s.startPacer k).tx = s.tx := rfl
@[simp] theorem State.startPacer_queries (k : BitVec 8) : (s.startPacer k).queries = s.queries := rfl
@[simp] theorem State.startPacer_clockReads (k : BitVec 8) : (s.startPacer k).clockReads = s.clockReads := rfl
@[simp] theorem State.startPacer_params (k : BitVec 8) : (s.startPacer k).params = s.params := rfl
@[simp] theorem State.startPacer_inbox (k : BitVec 8) : (s.startPacer k).inbox = s.inbox := rfl
@[simp] theorem State.startPacer_backendAnswers (k : BitVec 8) : (s.startPacer k).backendAnswers = s.backendAnswers := rfl
@[simp] theorem State.startPacer_clockAnswers (k : BitVec 8) : (s.startPacer k).clockAnswers = s.clockAnswers := rfl

/-! ### stopPacer -/

@[simp] theorem State.stopPacer_state : s.stopPacer.state = s.state := rfl
@[simp] theorem State.stopPacer_substep : s.stopPacer.substep = s.substep := rfl
@[simp] theorem State.stopPacer_chan : s.stopPacer.chan = s.chan := rfl
@[simp] theorem State.stopPacer_pkt : s.stopPacer.pkt = s.pkt := rfl
@[simp] theorem State.stopPacer_seg : s.stopPacer.seg = s.seg := rfl
@[simp] theorem State.stopPacer_cache : s.stopPacer.cache = s.cache := rfl
@[simp] theorem State.stopPacer_pz : s.stopPacer.pz = ⟨false, s.pz.idx, s.pz.cursor⟩ := rfl
@[simp] theorem State.stopPacer_fault : s.stopPacer.fault = s.fault := rfl
@[simp] theorem State.stopPacer_tx : s.stopPacer.tx = s.tx := rfl
@[simp] theorem State.stopPacer_queries : s.stopPacer.queries = s.queries := rfl
@[simp] theorem State.stopPacer_clockReads : s.stopPacer.clockReads = s.clockReads := rfl
@[simp] theorem State.stopPacer_params : s.stopPacer.params = s.params := rfl
@[simp] theorem State.stopPacer_inbox : s.stopPacer.inbox = s.inbox := rfl
@[simp] theorem State.stopPacer_backendAnswers : s.stopPacer.backendAnswers = s.backendAnswers := rfl
@[simp] theorem State.stopPacer_clockAnswers : s.stopPacer.clockAnswers = s.clockAnswers := rfl

/-! ### advanceCursor -/

@[simp] theorem State.advanceCursor_state : s.advanceCursor.state = s.state := rfl
@[simp] theorem State.advanceCursor_substep : s.advanceCursor.substep = s.substep := rfl
@[simp] theorem State.advanceCursor_chan : s.advanceCursor.chan = s.chan := rfl
@[simp] theorem State.advanceCursor_pkt : s.advanceCursor.pkt = s.pkt := rfl
@[simp] theorem State.advanceCursor_seg : s.advanceCursor.seg = s.seg := rfl
@[simp] theorem State.advanceCursor_cache : s.advanceCursor.cache = s.cache := rfl
@[simp] theorem State.advanceCursor_pz : s.advanceCursor.pz = ⟨s.pz.active, s.pz.idx, s.pz.cursor + 1⟩ := rfl
@[simp] theorem State.advanceCursor_fault : s.advanceCursor.fault = s.fault := rfl
@[simp] theorem State.advanceCursor_tx : s.advanceCursor.tx = s.tx := rfl
@[simp] theorem State.advanceCursor_queries : s.advanceCursor.queries = s.queries := rfl
@[simp] theorem State.advanceCursor_clockReads : s.advanceCursor.clockReads = s.clockReads := rfl
@[simp] theorem State.advanceCursor_params : s.advanceCursor.params = s.params := rfl
@[simp] theorem State.advanceCursor_inbox : s.advanceCursor.inbox = s.inbox := rfl
@[simp] theorem State.advanceCursor_backendAnswers : s.advanceCursor.backendAnswers = s.backendAnswers := rfl
@[simp] theorem State.advanceCursor_clockAnswers : s.advanceCursor.clockAnswers = s.clockAnswers := rfl

/-! ### raiseFault -/

@[simp] theorem State.raiseFault_state (f : FaultInfo) : (s.raiseFault f).state = s.state := rfl
@[simp] theorem State.raiseFault_substep (f : FaultInfo) : (s.raiseFault f).substep = s.substep := rfl
@[simp] theorem State.raiseFault_chan (f : FaultInfo) : (s.raiseFault f).chan = s.chan := rfl
@[simp] theorem State.raiseFault_pkt (f : FaultInfo) : (s.raiseFault f).pkt = s.pkt := rfl
@[simp] theorem State.raiseFault_seg (f : FaultInfo) : (s.raiseFault f).seg = s.seg := rfl
@[simp] theorem State.raiseFault_cache (f : FaultInfo) : (s.raiseFault f).cache = s.cache := rfl
@[simp] theorem State.raiseFault_pz (f : FaultInfo) : (s.raiseFault f).pz = s.pz := rfl
@[simp] theorem State.raiseFault_fault (f : FaultInfo) : (s.raiseFault f).fault = some f := rfl
@[simp] theorem State.raiseFault_tx (f : FaultInfo) : (s.raiseFault f).tx = s.tx := rfl
@[simp] theorem State.raiseFault_queries (f : FaultInfo) : (s.raiseFault f).queries = s.queries := rfl
@[simp] theorem State.raiseFault_clockReads (f : FaultInfo) : (s.raiseFault f).clockReads = s.clockReads := rfl
@[simp] theorem State.raiseFault_params (f : FaultInfo) : (s.raiseFault f).params = s.params := rfl
@[simp] theorem State.raiseFault_inbox (f : FaultInfo) : (s.raiseFault f).inbox = s.inbox := rfl
@[simp] theorem State.raiseFault_backendAnswers (f : FaultInfo) : (s.raiseFault f).backendAnswers = s.backendAnswers := rfl
@[simp] theorem State.raiseFault_clockAnswers (f : FaultInfo) : (s.raiseFault f).clockAnswers = s.clockAnswers := rfl

/-! ### afterQuery -/

@[simp] theorem State.afterQuery_state (id : SegId) : (s.afterQuery id).state = s.state := rfl
@[simp] theorem State.afterQuery_substep (id : SegId) : (s.afterQuery id).substep = s.substep := rfl
@[simp] theorem State.afterQuery_chan (id : SegId) : (s.afterQuery id).chan = s.chan := rfl
@[simp] theorem State.afterQuery_pkt (id : SegId) : (s.afterQuery id).pkt = s.pkt := rfl
@[simp] theorem State.afterQuery_seg (id : SegId) : (s.afterQuery id).seg = s.seg := rfl
@[simp] theorem State.afterQuery_cache (id : SegId) : (s.afterQuery id).cache = s.cache := rfl
@[simp] theorem State.afterQuery_pz (id : SegId) : (s.afterQuery id).pz = s.pz := rfl
@[simp] theorem State.afterQuery_fault (id : SegId) : (s.afterQuery id).fault = s.fault := rfl
@[simp] theorem State.afterQuery_tx (id : SegId) : (s.afterQuery id).tx = s.tx := rfl
@[simp] theorem State.afterQuery_queries (id : SegId) : (s.afterQuery id).queries = s.queries ++ [id] := rfl
@[simp] theorem State.afterQuery_clockReads (id : SegId) : (s.afterQuery id).clockReads = s.clockReads := rfl
@[simp] theorem State.afterQuery_params (id : SegId) : (s.afterQuery id).params = s.params := rfl
@[simp] theorem State.afterQuery_inbox (id : SegId) : (s.afterQuery id).inbox = s.inbox := rfl
@[simp] theorem State.afterQuery_backendAnswers (id : SegId) : (s.afterQuery id).backendAnswers = s.backendAnswers.tail := rfl
@[simp] theorem State.afterQuery_clockAnswers (id : SegId) : (s.afterQuery id).clockAnswers = s.clockAnswers := rfl

/-! ### afterClock -/

@[simp] theorem State.afterClock_state : s.afterClock.state = s.state := rfl
@[simp] theorem State.afterClock_substep : s.afterClock.substep = s.substep := rfl
@[simp] theorem State.afterClock_chan : s.afterClock.chan = s.chan := rfl
@[simp] theorem State.afterClock_pkt : s.afterClock.pkt = s.pkt := rfl
@[simp] theorem State.afterClock_seg : s.afterClock.seg = s.seg := rfl
@[simp] theorem State.afterClock_cache : s.afterClock.cache = s.cache := rfl
@[simp] theorem State.afterClock_pz : s.afterClock.pz = s.pz := rfl
@[simp] theorem State.afterClock_fault : s.afterClock.fault = s.fault := rfl
@[simp] theorem State.afterClock_tx : s.afterClock.tx = s.tx := rfl
@[simp] theorem State.afterClock_queries : s.afterClock.queries = s.queries := rfl
@[simp] theorem State.afterClock_clockReads : s.afterClock.clockReads = s.clockReads + 1 := rfl
@[simp] theorem State.afterClock_params : s.afterClock.params = s.params := rfl
@[simp] theorem State.afterClock_inbox : s.afterClock.inbox = s.inbox := rfl
@[simp] theorem State.afterClock_backendAnswers : s.afterClock.backendAnswers = s.backendAnswers := rfl
@[simp] theorem State.afterClock_clockAnswers : s.afterClock.clockAnswers = s.clockAnswers.tail := rfl

/-! ### resetRegisters -/

@[simp] theorem State.resetRegisters_state : s.resetRegisters.state = .idle := rfl
@[simp] theorem State.resetRegisters_substep : s.resetRegisters.substep = 0 := rfl
@[simp] theorem State.resetRegisters_chan : s.resetRegisters.chan = 0 := rfl
@[simp] theorem State.resetRegisters_pkt : s.resetRegisters.pkt = 0 := rfl
@[simp] theorem State.resetRegisters_seg : s.resetRegisters.seg = 0 := rfl
@[simp] theorem State.resetRegisters_cache : s.resetRegisters.cache = ⟨none, []⟩ := rfl
@[simp] theorem State.resetRegisters_pz : s.resetRegisters.pz = ⟨false, 0, 0⟩ := rfl
@[simp] theorem State.resetRegisters_fault : s.resetRegisters.fault = s.fault := rfl
@[simp] theorem State.resetRegisters_tx : s.resetRegisters.tx = s.tx := rfl
@[simp] theorem State.resetRegisters_queries : s.resetRegisters.queries = s.queries := rfl
@[simp] theorem State.resetRegisters_clockReads : s.resetRegisters.clockReads = s.clockReads := rfl
@[simp] theorem State.resetRegisters_params : s.resetRegisters.params = s.params := rfl
@[simp] theorem State.resetRegisters_inbox : s.resetRegisters.inbox = s.inbox := rfl
@[simp] theorem State.resetRegisters_backendAnswers : s.resetRegisters.backendAnswers = s.backendAnswers := rfl
@[simp] theorem State.resetRegisters_clockAnswers : s.resetRegisters.clockAnswers = s.clockAnswers := rfl

/-! ### popEvent -/

@[simp] theorem State.popEvent_state : s.popEvent.state = s.state := rfl
@[simp] theorem State.popEvent_substep : s.popEvent.substep = s.substep := rfl
@[simp] theorem State.popEvent_chan : s.popEvent.chan = s.chan := rfl
@[simp] theorem State.popEvent_pkt : s.popEvent.pkt = s.pkt := rfl
@[simp] theorem State.popEvent_seg : s.popEvent.seg = s.seg := rfl
@[simp] theorem State.popEvent_cache : s.popEvent.cache = s.cache := rfl
@[simp] theorem State.popEvent_pz : s.popEvent.pz = s.pz := rfl
@[simp] theorem State.popEvent_fault : s.popEvent.fault = s.fault := rfl
@[simp] theorem State.popEvent_tx : s.popEvent.tx = s.tx := rfl
@[simp] theorem State.popEvent_queries : s.popEvent.queries = s.queries := rfl
@[simp] theorem State.popEvent_clockReads : s.popEvent.clockReads = s.clockReads := rfl
@[simp] theorem State.popEvent_params : s.popEvent.params = s.params := rfl
@[simp] theorem State.popEvent_inbox : s.popEvent.inbox = s.inbox.tail := rfl
@[simp] theorem State.popEvent_backendAnswers : s.popEvent.backendAnswers = s.backendAnswers := rfl
@[simp] theorem State.popEvent_clockAnswers : s.popEvent.clockAnswers = s.clockAnswers := rfl

/-! ### cancelPacer -/

@[simp] theorem State.cancelPacer_state : s.cancelPacer.state = s.state := by
  unfold State.cancelPacer; split <;> rfl
@[simp] theorem State.cancelPacer_substep : s.cancelPacer.substep = s.substep := by
  unfold State.cancelPacer; split <;> rfl
@[simp] theorem State.cancelPacer_chan : s.cancelPacer.chan = s.chan := by
  unfold State.cancelPacer; split <;> rfl
@[simp] theorem State.cancelPacer_pkt : s.cancelPacer.pkt = s.pkt := by
  unfold State.cancelPacer; split <;> rfl
@[simp] theorem State.cancelPacer_seg : s.cancelPacer.seg = s.seg := by
  unfold State.cancelPacer; split <;> rfl
@[simp] theorem State.cancelPacer_cache : s.cancelPacer.cache = s.cache := by
  unfold State.cancelPacer; split <;> rfl
@[simp] theorem State.cancelPacer_pz :
    s.cancelPacer.pz = if s.pz.active then ⟨false, s.pz.idx, 0⟩ else s.pz := by
  unfold State.cancelPacer; split <;> rfl
@[simp] theorem State.cancelPacer_fault : s.cancelPacer.fault = s.fault := by
  unfold State.cancelPacer; split <;> rfl
@[simp] theorem State.cancelPacer_tx : s.cancelPacer.tx = s.tx := by
  unfold State.cancelPacer; split <;> rfl
@[simp] theorem State.cancelPacer_queries : s.cancelPacer.queries = s.queries := by
  unfold State.cancelPacer; split <;> rfl
@[simp] theorem State.cancelPacer_clockReads : s.cancelPacer.clockReads = s.clockReads := by
  unfold State.cancelPacer; split <;> rfl
@[simp] theorem State.cancelPacer_params : s.cancelPacer.params = s.params := by
  unfold State.cancelPacer; split <;> rfl
@[simp] theorem State.cancelPacer_inbox : s.cancelPacer.inbox = s.inbox := by
  unfold State.cancelPacer; split <;> rfl
@[simp] theorem State.cancelPacer_backendAnswers : s.cancelPacer.backendAnswers = s.backendAnswers := by
  unfold State.cancelPacer; split <;> rfl
@[simp] theorem State.cancelPacer_clockAnswers : s.cancelPacer.clockAnswers = s.clockAnswers := by
  unfold State.cancelPacer; split <;> rfl

/-- After the cancel no run is active (spec/40_commands.md R56). -/
theorem State.cancelPacer_inactive : s.cancelPacer.pz.active = false := by
  rw [State.cancelPacer_pz]; split <;> simp_all

/-! ### unlessFaulted -/

/-- While no fault is set a meaning has its own effect. -/
theorem State.unlessFaulted_live {s : State} (h : s.fault = none) (t : Host.Outcome State Fault Refusal) :
    s.unlessFaulted t = t := by
  simp [State.unlessFaulted, h]

/-- While a fault is set a meaning has no effect (spec/60_exceptions.md R100). -/
theorem State.unlessFaulted_faulted {s : State} (h : s.fault ≠ none) (t : Host.Outcome State Fault Refusal) :
    s.unlessFaulted t = .next s := by
  unfold State.unlessFaulted; split <;> simp_all

/-- Everything `unlessFaulted` can do: nothing, or the effect. -/
theorem State.unlessFaulted_cases {s : State} {o t : Host.Outcome State Fault Refusal} (h : s.unlessFaulted t = o) :
    (s.fault ≠ none ∧ o = .next s) ∨ (s.fault = none ∧ o = t) := by
  unfold State.unlessFaulted at h; split at h <;> simp_all

end Sys2Proof.Machine
end

