-- ==== Sys2Proof/Laws/Memory.lean ====
section
/-! SUPPORT. The record store: a read after a write, what a write leaves alone, and that every operation on the store keeps
its form `Memory.wf`. -/

namespace Sys2Proof.Machine

theorem Memory.readByte_eq (m : Memory) (i off : Nat) : m.readByte i off = m[i]?.bind (·[off]?) := by
  unfold Memory.readByte; split <;> simp_all

theorem Memory.readByte_of_record {m : Memory} {i : Nat} {r : Record} (h : m[i]? = some r) (off : Nat) :
    m.readByte i off = r[off]? := by
  simp [Memory.readByte_eq, h]

theorem writeBytes_getElem?_before (v : List Byte) : ∀ (r : Record) (off k : Nat), k < off →
    (writeBytes r off v)[k]? = r[k]? := by
  induction v with
  | nil => intro r off k _; rfl
  | cons b bs ih =>
    intro r off k h
    rw [writeBytes, ih _ _ _ (by omega), List.getElem?_set_ne (by omega)]

theorem writeBytes_getElem?_after (v : List Byte) : ∀ (r : Record) (off k : Nat), off + v.length ≤ k →
    (writeBytes r off v)[k]? = r[k]? := by
  induction v with
  | nil => intro r off k _; rfl
  | cons b bs ih =>
    intro r off k h
    simp only [List.length_cons] at h
    rw [writeBytes, ih _ _ _ (by omega), List.getElem?_set_ne (by omega)]

theorem writeBytes_getElem?_inside (v : List Byte) : ∀ (r : Record) (off k : Nat), off + v.length ≤ r.length → k < v.length →
    (writeBytes r off v)[off + k]? = v[k]? := by
  induction v with
  | nil => intro r off k _ h; simp at h
  | cons b bs ih =>
    intro r off k h hk
    simp only [List.length_cons] at h hk
    rw [writeBytes]
    cases k with
    | zero =>
      rw [writeBytes_getElem?_before _ _ _ _ (by omega)]
      exact List.getElem?_set_self (by omega)
    | succ k =>
      rw [show off + (k + 1) = off + 1 + k by omega, ih _ _ _ (by simp; omega) (by omega)]; rfl

/-- A write succeeds only inside an existing record, and gives the store with that record's bytes replaced. -/
theorem Memory.write_eq {m m' : Memory} {i off : Nat} {v : List Byte} (h : m.write i off v = some m') :
    ∃ r, m[i]? = some r ∧ off + v.length ≤ r.length ∧ m' = m.set i (writeBytes r off v) := by
  unfold Memory.write at h
  split at h
  · rename_i r hr
    split at h
    · exact ⟨r, hr, ‹_›, by simpa using h.symm⟩
    · cases h
  · cases h

theorem Memory.write_wf {m m' : Memory} {i off : Nat} {v : List Byte} (h : m.write i off v = some m') (hm : m.wf = true) :
    m'.wf = true := by
  obtain ⟨r, hr, -, rfl⟩ := Memory.write_eq h
  simp only [Memory.wf, List.all_eq_true] at hm ⊢
  intro x hx
  rcases List.mem_or_eq_of_mem_set hx with hx | rfl
  · exact hm x hx
  · rw [writeBytes_length]
    exact hm r (List.mem_of_getElem? hr)

/-- `MemRead` inside a record gives its bytes from `off` on. -/
theorem Memory.read_eq {m : Memory} {i : Nat} {r : Record} (h : m[i]? = some r) :
    ∀ (n off : Nat), off + n ≤ r.length → m.read i off n = some ((r.drop off).take n) := by
  intro n
  induction n with
  | zero => intro off _; simp [Memory.read]
  | succ n ih =>
    intro off hlen
    have hlt : off < r.length := by omega
    rw [Memory.read, Memory.readByte_of_record h, List.getElem?_eq_getElem hlt, ih (off + 1) (by omega),
      List.drop_eq_getElem_cons hlt, List.take_succ_cons]

/-- After a write the written bytes read back. -/
theorem Memory.read_write {m m' : Memory} {i off : Nat} {v : List Byte} (h : m.write i off v = some m') :
    m'.read i off v.length = some v := by
  obtain ⟨r, hr, hlen, rfl⟩ := Memory.write_eq h
  have hi : i < m.length := (List.getElem?_eq_some_iff.1 hr).1
  rw [Memory.read_eq (r := writeBytes r off v) (by rw [List.getElem?_set_self hi]) _ _ (by simpa using hlen)]
  congr 1
  apply List.ext_getElem?
  intro k
  by_cases hk : k < v.length
  · rw [List.getElem?_take_of_lt hk, List.getElem?_drop, writeBytes_getElem?_inside v r off k hlen hk]
  · rw [List.getElem?_eq_none (by simp; omega), List.getElem?_eq_none (by omega)]

/-- A write leaves every other byte of the store alone. -/
theorem Memory.readByte_write_other {m m' : Memory} {i off : Nat} {v : List Byte} (h : m.write i off v = some m')
    {j o : Nat} (ho : j ≠ i ∨ o < off ∨ off + v.length ≤ o) : m'.readByte j o = m.readByte j o := by
  obtain ⟨r, hr, -, rfl⟩ := Memory.write_eq h
  have hi : i < m.length := (List.getElem?_eq_some_iff.1 hr).1
  by_cases hj : j = i
  · subst hj
    rw [Memory.readByte_of_record hr, Memory.readByte_of_record (by rw [List.getElem?_set_self hi])]
    rcases ho with ho | ho | ho
    · exact absurd rfl ho
    · exact writeBytes_getElem?_before v r off o ho
    · exact writeBytes_getElem?_after v r off o ho
  · rw [Memory.readByte_eq, Memory.readByte_eq, List.getElem?_set_ne (Ne.symm hj)]

/-- A record of a store in its form has 18 to 1009 bytes. -/
theorem Memory.wf_record {m : Memory} (hm : m.wf = true) {i : Nat} {r : Record} (h : m[i]? = some r) :
    18 ≤ r.length ∧ r.length ≤ 1009 := by
  simp only [Memory.wf, List.all_eq_true, Bool.and_eq_true, decide_eq_true_eq] at hm
  exact hm r (List.mem_of_getElem? h)

/-- The form of the store, as a statement about its records. -/
theorem Memory.wf_iff {m : Memory} : m.wf = true ↔ ∀ r ∈ m, 18 ≤ r.length ∧ r.length ≤ 1009 := by
  simp only [Memory.wf, List.all_eq_true, Bool.and_eq_true, decide_eq_true_eq]
  exact Iff.rfl

theorem Memory.wf_nil : Memory.wf [] = true := rfl

/-- The store of the reset state has its form. -/
theorem State.reset_memory_wf : State.reset.cache.recs.wf = true := rfl

end Sys2Proof.Machine
end

