-- ==== Sys2Proof/Laws/Pipeline.lean ====
section
/-! SUPPORT. Everything the pipeline can do (spec/42_pipeline.md R71), for callers that do not unfold it. -/

namespace Sys2Proof.Machine

theorem encodeAnswer_tooLong (p : Params) (id : SegId) (kind : PathKind) {bytes : List Byte} (h : 65536 < bytes.length) :
    encodeAnswer p id (.ok kind bytes) = .error .tooLarge := if_pos h

theorem encodeAnswer_raw (p : Params) (id : SegId) {bytes : List Byte} (h : bytes.length ≤ 65536) :
    encodeAnswer p id (.ok .raw bytes) = .ok (rawRecords p id bytes) := if_neg (Nat.not_lt.2 h)

theorem encodeAnswer_container (p : Params) (id : SegId) {bytes : List Byte} (h : bytes.length ≤ 65536) :
    encodeAnswer p id (.ok .container bytes) = passThrough p bytes := if_neg (Nat.not_lt.2 h)

/-- What a backend answer can give: a failure that is one of the four, or records of legal length with their CRCs. -/
theorem encodeAnswer_ok {p : Params} {id : SegId} {a : BackendResult} {recs : List Record}
    (h : encodeAnswer p id a = .ok recs) :
    ∃ kind bytes, a = .ok kind bytes ∧ bytes.length ≤ 65536 ∧
      ((kind = .raw ∧ recs = rawRecords p id bytes) ∨ (kind = .container ∧ passThrough p bytes = .ok recs)) := by
  cases a with
  | ok kind bytes =>
    simp only [encodeAnswer, maxSegment] at h
    split at h
    · cases h
    · refine ⟨kind, bytes, rfl, by omega, ?_⟩
      cases kind with
      | raw => exact .inl ⟨rfl, by simpa using h.symm⟩
      | container => exact .inr ⟨rfl, h⟩
  | notFound => cases h
  | tooLarge => cases h
  | ioError => cases h

theorem encodeAnswer_wf {p : Params} {id : SegId} {a : BackendResult} {recs : List Record}
    (h : encodeAnswer p id a = .ok recs) : Memory.wf recs = true := by
  obtain ⟨_, _, -, -, ⟨-, rfl⟩ | ⟨-, hp⟩⟩ := encodeAnswer_ok h
  · exact rawRecords_wf _ _ _
  · exact passThrough_wf hp

theorem encodeAnswer_crcHolds {p : Params} {id : SegId} {a : BackendResult} {recs : List Record}
    (h : encodeAnswer p id a = .ok recs) : ∀ r ∈ recs, crcHolds p.crcTable r := by
  intro r hr
  obtain ⟨_, _, -, -, ⟨-, rfl⟩ | ⟨-, hp⟩⟩ := encodeAnswer_ok h
  · exact crcHolds_rawRecords hr
  · exact crcHolds_passThrough hp hr

theorem State.cacheHit_iff (s : State) (id : SegId) :
    s.cacheHit id = true ↔ s.cache.id = some id ∧ s.cache.recs ≠ [] := by
  simp [State.cacheHit]

/-- The four things `Pipeline(id)` can do: rebuild the clock segment, hit the cache, replace the cache, fail. -/
theorem pipeline_cases (id : SegId) (s : State) :
    (id = clockId ∧
      pipeline id s = (.ok, s.afterClock.replaceCache clockId (clockRecords s.params s.clockAnswer))) ∨
    (id ≠ clockId ∧ s.cacheHit id = true ∧ pipeline id s = (.ok, s)) ∨
    (id ≠ clockId ∧ s.cacheHit id = false ∧ ∃ recs, encodeAnswer s.params id (s.backendAnswer id) = .ok recs ∧
      pipeline id s = (.ok, (s.afterQuery id).replaceCache id recs)) ∨
    (id ≠ clockId ∧ s.cacheHit id = false ∧ ∃ kind, encodeAnswer s.params id (s.backendAnswer id) = .error kind ∧
      pipeline id s = (.fail kind, (s.afterQuery id).invalidate)) := by
  unfold pipeline
  split
  · exact .inl ⟨‹_›, rfl⟩
  · split
    · exact .inr (.inl ⟨‹_›, ‹_›, rfl⟩)
    · split
      · exact .inr (.inr (.inl ⟨‹_›, by simpa using ‹¬ _ = true›, _, ‹_›, rfl⟩))
      · exact .inr (.inr (.inr ⟨‹_›, by simpa using ‹¬ _ = true›, _, ‹_›, rfl⟩))

end Sys2Proof.Machine
end

