-- ==== Sys2Proof/Laws/Exec.lean ====
section
/-! SUPPORT. One lemma per instruction: what its meaning does while no fault is set, over the shared operations; and what a
meaning can answer at all. -/

namespace Sys2Proof.Machine

variable {s : State}

/-- The fourth `SegmentRequest` byte's four outcomes (spec/41_argument_states.md R67): clock, cache hit, success, failure. -/
theorem requestSegment_cases (s : State) (b : Byte) :
    (withSegByte2 s.seg b = clockId ∧
      s.requestSegment b = (((((s.setSeg clockId).emit [doneByte]).afterClock).replaceCache clockId
        (clockRecords s.params s.clockAnswer)).emit [segOkByte]).enter .sendSegment) ∨
    (withSegByte2 s.seg b ≠ clockId ∧ s.cacheHit (withSegByte2 s.seg b) = true ∧
      s.requestSegment b = (((s.setSeg (withSegByte2 s.seg b)).emit [doneByte]).emit [segOkByte]).enter .sendSegment) ∨
    (withSegByte2 s.seg b ≠ clockId ∧ s.cacheHit (withSegByte2 s.seg b) = false ∧
      ∃ recs, encodeAnswer s.params (withSegByte2 s.seg b) (s.backendAnswer (withSegByte2 s.seg b)) = .ok recs ∧
        s.requestSegment b = (((((s.setSeg (withSegByte2 s.seg b)).emit [doneByte]).afterQuery (withSegByte2 s.seg b)).replaceCache
          (withSegByte2 s.seg b) recs).emit [segOkByte]).enter .sendSegment) ∨
    (withSegByte2 s.seg b ≠ clockId ∧ s.cacheHit (withSegByte2 s.seg b) = false ∧
      ∃ kind, encodeAnswer s.params (withSegByte2 s.seg b) (s.backendAnswer (withSegByte2 s.seg b)) = .error kind ∧
        s.requestSegment b = (((((s.setSeg (withSegByte2 s.seg b)).emit [doneByte]).afterQuery
          (withSegByte2 s.seg b)).invalidate).emit [segFailByte]).enter .idle) := by
  have hp := pipeline_cases (withSegByte2 s.seg b) ((s.setSeg (withSegByte2 s.seg b)).emit [doneByte])
  unfold State.requestSegment
  rcases hp with ⟨hid, he⟩ | ⟨hid, hh, he⟩ | ⟨hid, hh, recs, ha, he⟩ | ⟨hid, hh, kind, ha, he⟩
  · refine .inl ⟨hid, ?_⟩
    simp only [hid] at he ⊢
    rw [he]; rfl
  · exact .inr (.inl ⟨hid, hh, by simp only [he]; rfl⟩)
  · exact .inr (.inr (.inl ⟨hid, hh, recs, ha, by simp only [he]; rfl⟩))
  · exact .inr (.inr (.inr ⟨hid, hh, kind, ha, by simp only [he]; rfl⟩))

/-! ### Commands -/

theorem execChan_live (h : s.fault = none) : execChan s = .next (s.ackAndEnter .channelRequest) :=
  s.unlessFaulted_live h _

theorem execSegreq_live (h : s.fault = none) :
    execSegreq s = .next (s.cancelPacer.ackAndEnter .segmentRequest) := s.unlessFaulted_live h _

theorem execCmd83_live (h : s.fault = none) :
    execCmd83 s = .next ((s.emit (ackBytes ++ [doneByte])).enter .idle) := s.unlessFaulted_live h _

theorem execGetstat_live (h : s.fault = none) : execGetstat s = .next (s.ackAndEnter .getStatusRequest) :=
  s.unlessFaulted_live h _

theorem execSetstat_live (h : s.fault = none) : execSetstat s = .next (s.ackAndEnter .setStatusRequest) :=
  s.unlessFaulted_live h _

theorem execIgnore_live (h : s.fault = none) (b : Byte) : execIgnore b s = .next (s.enter .idle) :=
  s.unlessFaulted_live h _

/-! ### Argument bytes -/

theorem execChanA0_live (h : s.fault = none) (b : Byte) :
    execChanA0 b s = .next (s.setChan (withLowByte s.chan b)).advance := s.unlessFaulted_live h _

theorem execChanA1_live (h : s.fault = none) (b : Byte) :
    execChanA1 b s = .next (s.setChan (withHighByte s.chan b)).finish := s.unlessFaulted_live h _

theorem execSetstatD0_live (h : s.fault = none) (b : Byte) : execSetstatD0 b s = .next s.advance :=
  s.unlessFaulted_live h _

theorem execSetstatD1_live (h : s.fault = none) (b : Byte) : execSetstatD1 b s = .next s.finish :=
  s.unlessFaulted_live h _

theorem execGetstatQ01_live (h : s.fault = none) :
    execGetstatQ01 s = .next ((s.emit (statusByte s.params.promptForChannel :: termBytes)).enter .idle) :=
  s.unlessFaulted_live h _

theorem execGetstatQother_live (h : s.fault = none) (b : Byte) :
    execGetstatQother b s = .next ((s.emit termBytes).enter .idle) := s.unlessFaulted_live h _

theorem execSegreqPkt_live (h : s.fault = none) (b : Byte) : execSegreqPkt b s = .next (s.setPkt b).advance :=
  s.unlessFaulted_live h _

theorem execSegreqId0_live (h : s.fault = none) (b : Byte) :
    execSegreqId0 b s = .next (s.setSeg (withSegByte0 s.seg b)).advance := s.unlessFaulted_live h _

theorem execSegreqId1_live (h : s.fault = none) (b : Byte) :
    execSegreqId1 b s = .next (s.setSeg (withSegByte1 s.seg b)).advance := s.unlessFaulted_live h _

theorem execSegreqId2_live (h : s.fault = none) (b : Byte) : execSegreqId2 b s = .next (s.requestSegment b) :=
  s.unlessFaulted_live h _

/-! ### Handshake bytes -/

theorem execHs1_live (h : s.fault = none) : execHs1 s = .next s.advance := s.unlessFaulted_live h _

theorem execHs1Abort_live (h : s.fault = none) (b : Byte) : execHs1Abort b s = .next (s.enter .idle) :=
  s.unlessFaulted_live h _

theorem execHs2_live (h : s.fault = none) (hk : s.pkt.toNat < s.cache.recs.length) :
    execHs2 s = .next ((s.startPacer s.pkt).enter .idle) := by
  rw [execHs2, State.unlessFaulted_live h, if_neg (by omega)]

theorem execHs2_outOfRange (h : s.fault = none) (hk : s.cache.recs.length ≤ s.pkt.toNat) :
    execHs2 s = .next (s.raiseFault (.packetIndexOutOfRange s.pkt s.cache.recs.length)) := by
  rw [execHs2, State.unlessFaulted_live h, if_pos hk]

theorem execHs2Abort_live (h : s.fault = none) (b : Byte) : execHs2Abort b s = .next (s.enter .idle) :=
  s.unlessFaulted_live h _

/-! ### Ticks and reset -/

theorem execTickIdle_live (h : s.fault = none) : execTickIdle s = .next s := s.unlessFaulted_live h _

theorem execTickData_live (h : s.fault = none) {b : Byte}
    (hb : s.cache.recs.readByte s.pz.idx.toNat s.pz.cursor.toNat = some b) :
    execTickData s = .next (s.emit (escapeByte b)).advanceCursor := by
  rw [execTickData, State.unlessFaulted_live h, hb]

theorem execTickData_absent (h : s.fault = none)
    (hb : s.cache.recs.readByte s.pz.idx.toNat s.pz.cursor.toNat = none) :
    execTickData s = .fault (.recordByteAbsent s.pz.idx s.pz.cursor.toNat) := by
  rw [execTickData, State.unlessFaulted_live h, hb]

theorem execTickEnd_live (h : s.fault = none) : execTickEnd s = .next (s.emit termBytes).stopPacer :=
  s.unlessFaulted_live h _

theorem execReset_live (h : s.fault = none) : execReset s = .next s.resetRegisters := s.unlessFaulted_live h _

/-! ### What a meaning can answer -/

/-- The only meaning that can stop is TICK_DATA, on a record byte that does not exist. -/
theorem exec_next_or_absent (i : Instr) (s : State) :
    (∃ t, exec i s = .next t) ∨
      (i = .tickData ∧ s.fault = none ∧ s.cache.recs.readByte s.pz.idx.toNat s.pz.cursor.toNat = none) := by
  cases hf : s.fault with
  | some f =>
    refine .inl ⟨s, ?_⟩
    cases i <;> exact s.unlessFaulted_faulted (by simp [hf]) _
  | none =>
    cases i with
    | tickData =>
      cases hb : s.cache.recs.readByte s.pz.idx.toNat s.pz.cursor.toNat with
      | none => exact .inr ⟨rfl, rfl, rfl⟩
      | some b => exact .inl ⟨_, execTickData_live hf hb⟩
    | hs2 =>
      by_cases hk : s.pkt.toNat < s.cache.recs.length
      · exact .inl ⟨_, execHs2_live hf hk⟩
      · exact .inl ⟨_, execHs2_outOfRange hf (by omega)⟩
    | _ => exact .inl ⟨_, s.unlessFaulted_live hf _⟩

/-- While a fault is set no instruction has an effect. -/
theorem exec_faulted (h : s.fault ≠ none) (i : Instr) : exec i s = .next s := by
  cases i <;> exact s.unlessFaulted_faulted h _

/-- Everything an instruction that answers a next state can have done. -/
theorem exec_next_cases {i : Instr} {t : State} (h : exec i s = .next t) :
    (s.fault ≠ none ∧ t = s) ∨ (s.fault = none ∧
    match i with
    | .chan => t = s.ackAndEnter .channelRequest
    | .segreq => t = s.cancelPacer.ackAndEnter .segmentRequest
    | .cmd83 => t = (s.emit (ackBytes ++ [doneByte])).enter .idle
    | .getstat => t = s.ackAndEnter .getStatusRequest
    | .setstat => t = s.ackAndEnter .setStatusRequest
    | .ignore _ => t = s.enter .idle
    | .chanA0 b => t = (s.setChan (withLowByte s.chan b)).advance
    | .chanA1 b => t = (s.setChan (withHighByte s.chan b)).finish
    | .setstatD0 _ => t = s.advance
    | .setstatD1 _ => t = s.finish
    | .getstatQ01 => t = (s.emit (statusByte s.params.promptForChannel :: termBytes)).enter .idle
    | .getstatQother _ => t = (s.emit termBytes).enter .idle
    | .segreqPkt b => t = (s.setPkt b).advance
    | .segreqId0 b => t = (s.setSeg (withSegByte0 s.seg b)).advance
    | .segreqId1 b => t = (s.setSeg (withSegByte1 s.seg b)).advance
    | .segreqId2 b => t = s.requestSegment b
    | .hs1 => t = s.advance
    | .hs1Abort _ => t = s.enter .idle
    | .hs2 => (s.pkt.toNat < s.cache.recs.length ∧ t = (s.startPacer s.pkt).enter .idle) ∨
        (s.cache.recs.length ≤ s.pkt.toNat ∧ t = s.raiseFault (.packetIndexOutOfRange s.pkt s.cache.recs.length))
    | .hs2Abort _ => t = s.enter .idle
    | .tickIdle => t = s
    | .tickData => ∃ b, s.cache.recs.readByte s.pz.idx.toNat s.pz.cursor.toNat = some b ∧
        t = (s.emit (escapeByte b)).advanceCursor
    | .tickEnd => t = (s.emit termBytes).stopPacer
    | .reset => t = s.resetRegisters) := by
  by_cases hf : s.fault = none
  · refine .inr ⟨hf, ?_⟩
    cases i with
    | hs2 =>
      by_cases hk : s.pkt.toNat < s.cache.recs.length
      · rw [exec, execHs2_live hf hk] at h; cases h; exact .inl ⟨hk, rfl⟩
      · rw [exec, execHs2_outOfRange hf (by omega)] at h; cases h; exact .inr ⟨by omega, rfl⟩
    | tickData =>
      cases hb : s.cache.recs.readByte s.pz.idx.toNat s.pz.cursor.toNat with
      | none => rw [exec, execTickData_absent hf hb] at h; cases h
      | some b => rw [exec, execTickData_live hf hb] at h; cases h; exact ⟨b, rfl, rfl⟩
    | _ =>
      have h2 := (s.unlessFaulted_live hf _).symm.trans h
      cases h2; rfl
  · rw [exec_faulted hf] at h; cases h; exact .inl ⟨hf, rfl⟩

/-- No instruction touches the inbox or the parameters, and the transmit stream only grows. -/
theorem exec_frame_environment {i : Instr} {t : State} (h : exec i s = .next t) :
    t.params = s.params ∧ t.inbox = s.inbox ∧ ∃ l, t.tx = s.tx ++ l := by
  rcases exec_next_cases h with ⟨-, rfl⟩ | ⟨-, ht⟩
  · exact ⟨rfl, rfl, [], by simp⟩
  · cases i with
    | segreqId2 b =>
      simp only at ht; subst ht
      rcases requestSegment_cases s b with ⟨-, e⟩ | ⟨-, -, e⟩ | ⟨-, -, _, -, e⟩ | ⟨-, -, _, -, e⟩ <;>
        rw [e] <;> exact ⟨rfl, rfl, _, List.append_assoc _ _ _⟩
    | hs2 => rcases ht with ⟨-, rfl⟩ | ⟨-, rfl⟩ <;> exact ⟨rfl, rfl, [], by simp⟩
    | tickData => obtain ⟨b, -, rfl⟩ := ht; exact ⟨rfl, rfl, _, rfl⟩
    | _ => simp only at ht; subst ht; simp [State.ackAndEnter, State.finish]

end Sys2Proof.Machine
end

