-- ==== Sys2Proof/Laws/Operands.lean ====
section
/-! SUPPORT. Operand assembly: the bytes of an operand, placed one after the other, give the operand whatever was there before
(spec/30_encoding.md R46). -/

namespace Sys2Proof.Machine

/-- `chan = a1 || a0` (R46). -/
theorem channel_assembled (v : Word16) (a0 a1 : Byte) : withHighByte (withLowByte v a0) a1 = a1 ++ a0 := by
  unfold withHighByte withLowByte lowByte highByte
  apply BitVec.eq_of_getLsbD_eq
  intro i hi
  simp only [BitVec.getLsbD_append, BitVec.getLsbD_extractLsb']
  by_cases h0 : i < 8
  · simp [h0]
  · simp [h0]

/-- `seg = s2 || s1 || s0` (R46). -/
theorem segment_assembled (v : SegId) (s0 s1 s2 : Byte) :
    withSegByte2 (withSegByte1 (withSegByte0 v s0) s1) s2 = s2 ++ s1 ++ s0 := by
  unfold withSegByte2 withSegByte1 withSegByte0
  apply BitVec.eq_of_getLsbD_eq
  intro i hi
  simp only [BitVec.getLsbD_append, BitVec.getLsbD_extractLsb']
  by_cases h0 : i < 8
  · simp [h0, show i < 16 by omega]
  · by_cases h1 : i < 16
    · simp [h0, h1, show i - 8 < 8 by omega]
    · simp [h0, h1, show ¬ i - 8 < 8 by omega, Nat.sub_sub]

end Sys2Proof.Machine
end

