-- ==== Sys2Proof/Laws/PerInstr.lean ====
section
/-! SUPPORT. Statements for all instructions, one lemma per constructor: every instruction is encoded at an entry for which the
decode table has a row (spec/30_encoding.md R45, spec/10_state.md R17). -/

namespace Sys2Proof.Laws.EncodeLegal

/-- The instruction's encoding is a legal entry of the decode table. -/
def Statement (i : Instr) : Prop := (encode i).legal = true

theorem chan : Statement .chan := rfl
theorem segreq : Statement .segreq := rfl
theorem cmd83 : Statement .cmd83 := rfl
theorem getstat : Statement .getstat := rfl
theorem setstat : Statement .setstat := rfl
theorem ignore (b : Byte) : Statement (.ignore b) := rfl
theorem chanA0 (b : Byte) : Statement (.chanA0 b) := rfl
theorem chanA1 (b : Byte) : Statement (.chanA1 b) := rfl
theorem setstatD0 (b : Byte) : Statement (.setstatD0 b) := rfl
theorem setstatD1 (b : Byte) : Statement (.setstatD1 b) := rfl
theorem getstatQ01 : Statement .getstatQ01 := rfl
theorem getstatQother (b : Byte) : Statement (.getstatQother b) := rfl
theorem segreqPkt (b : Byte) : Statement (.segreqPkt b) := rfl
theorem segreqId0 (b : Byte) : Statement (.segreqId0 b) := rfl
theorem segreqId1 (b : Byte) : Statement (.segreqId1 b) := rfl
theorem segreqId2 (b : Byte) : Statement (.segreqId2 b) := rfl
theorem hs1 : Statement .hs1 := rfl
theorem hs1Abort (b : Byte) : Statement (.hs1Abort b) := rfl
theorem hs2 : Statement .hs2 := rfl
theorem hs2Abort (b : Byte) : Statement (.hs2Abort b) := rfl
theorem tickIdle : Statement .tickIdle := rfl
theorem tickData : Statement .tickData := rfl
theorem tickEnd : Statement .tickEnd := rfl
theorem reset : Statement .reset := rfl

end Sys2Proof.Laws.EncodeLegal
end

