-- ==== Sys2Proof/Laws/Step.lean ====
section
/-! SUPPORT. Everything a step can do, and runs one step at a time. -/

namespace Sys2Proof.Machine

/-- A step that answers a next state either has no event to decode (none is lined up, or a fault is set), or runs the decoded
instruction of its oldest event. -/
theorem step_cases {s t : State} (h : step s = .next t) :
    ((s.fault ≠ none ∨ s.inbox = []) ∧ t = s.popEvent) ∨
    (s.fault = none ∧ ∃ e rest i, s.inbox = e :: rest ∧ decode (s.key e) = .ok i ∧ exec i s.popEvent = .next t) := by
  unfold step State.fetch at h
  cases hf : s.fault with
  | some f => simp only [hf] at h; cases h; exact .inl ⟨.inl (by simp), rfl⟩
  | none =>
    cases hi : s.inbox with
    | nil => simp only [hf, hi] at h; cases h; exact .inl ⟨.inr rfl, rfl⟩
    | cons e rest =>
      simp only [hf, hi] at h
      cases hd : decode (s.key e) with
      | error reason => rw [hd] at h; cases h
      | ok i => rw [hd] at h; exact .inr ⟨rfl, e, rest, i, rfl, hd, h⟩

/-- The decode table's entry does not depend on the inbox. -/
@[simp] theorem State.popEvent_key (s : State) (e : Event) : s.popEvent.key e = s.key e := by
  cases e <;> rfl

@[simp] theorem State.run_zero (s : State) : s.run 0 = .next s := rfl

/-- A run goes on from a step's next state. -/
theorem State.run_succ {s t : State} (h : step s = .next t) (n : Nat) : s.run (n + 1) = t.run n := by
  rw [State.run, h]

/-- Runs compose. -/
theorem State.run_add {s t : State} {m : Nat} (h : s.run m = .next t) (n : Nat) : s.run (m + n) = t.run n := by
  induction m generalizing s with
  | zero => cases h; rw [Nat.zero_add]
  | succ m ih =>
    rw [State.run] at h
    rw [show m + 1 + n = (m + n) + 1 by omega, State.run]
    split at h
    · rename_i u hu; exact ih h
    · cases h
    · cases h

end Sys2Proof.Machine
end

