-- ==== Sys2Proof/Tests/Slice0.lean ====
section
/-! SUPPORT. Tests: expected values are those of spec/95_test_vectors.md or written out by hand from the rule named. Then a witness for
the hypotheses of every statement of Certificates/Slice0/Obligations.lean that has some. -/

namespace Sys2Proof.Tests

open Sys2Proof.Machine

/-! ### States to test on -/

/-- The reset state with `PROMPT_FOR_CHANNEL = 0` (the start state of spec/95_test_vectors.md). -/
def base : State :=
  { State.reset with params := { promptForChannel := false, headerLayout := .nabu, crcTable := defaultCrcTable } }

/-- `base` at a point of control. -/
def atPoint (p : ProtoState) (n : BitVec 8) : State := { base with state := p, substep := n }

/-- The record of spec/95_test_vectors.md §2.5 for id 0x000001 and payload `[10]`. -/
def recordWithDle : Record :=
  [0x00, 0x00, 0x01, 0x00, 0x01, 0x7F, 0xFF, 0xFF, 0xFF, 0x7F, 0x80, 0xB1, 0x00, 0x00, 0x00, 0x00, 0x10, 0x72, 0xE7]

/-- A cache of that record. -/
def cached : Cache := { id := some 0x000001, recs := [recordWithDle] }

/-- A Pacer run of that record at a cursor. -/
def sendingAt (c : BitVec 11) : State := { base with cache := cached, pz := { active := true, idx := 0, cursor := c } }

/-- Waiting for the last byte of the id 0x000001, with the backend's next answer lined up. -/
def lastByteState (a : BackendResult) : State :=
  { atPoint .segmentRequest 3 with seg := 0x000001, backendAnswers := [a] }

/-! ### Ill-formed instructions are refused by the check (one for each check of WellFormed.lean) -/

theorem test_illformed_ignore_81 : Instr.wellFormed (.ignore 0x81) = false := by decide
theorem test_illformed_ignore_82 : Instr.wellFormed (.ignore 0x82) = false := by decide
theorem test_illformed_ignore_83 : Instr.wellFormed (.ignore 0x83) = false := by decide
theorem test_illformed_ignore_84 : Instr.wellFormed (.ignore 0x84) = false := by decide
theorem test_illformed_ignore_85 : Instr.wellFormed (.ignore 0x85) = false := by decide
theorem test_illformed_getstatQother : Instr.wellFormed (.getstatQother 0x01) = false := by decide
theorem test_illformed_hs1Abort : Instr.wellFormed (.hs1Abort 0x10) = false := by decide
theorem test_illformed_hs2Abort : Instr.wellFormed (.hs2Abort 0x06) = false := by decide
theorem test_wellformed_ignore_bounds :
    Instr.wellFormed (.ignore 0x80) = true ∧ Instr.wellFormed (.ignore 0x86) = true := by decide
theorem test_illegal_points : Point.legal ⟨.idle, 1⟩ = false ∧ Point.legal ⟨.channelRequest, 2⟩ = false ∧
    Point.legal ⟨.segmentRequest, 4⟩ = false ∧ Point.legal ⟨.setStatusRequest, 2⟩ = false ∧
    Point.legal ⟨.getStatusRequest, 1⟩ = false ∧ Point.legal ⟨.sendSegment, 2⟩ = false := by decide
theorem test_illegal_pacer_keys : Key.legal (.tick .noRecord) = false ∧ Key.legal (.tick .pastEnd) = false := by decide

/-! ### Decoding: bytes written out bit by bit from spec/30_encoding.md R45 -/

theorem test_decode_chan : decode (.rx ⟨.idle, 0⟩ 0b10000101) = .ok .chan := by rfl
theorem test_decode_segreq : decode (.rx ⟨.idle, 0⟩ 0b10000100) = .ok .segreq := by rfl
theorem test_decode_cmd83 : decode (.rx ⟨.idle, 0⟩ 0b10000011) = .ok .cmd83 := by rfl
theorem test_decode_getstat : decode (.rx ⟨.idle, 0⟩ 0b10000010) = .ok .getstat := by rfl
theorem test_decode_setstat : decode (.rx ⟨.idle, 0⟩ 0b10000001) = .ok .setstat := by rfl
theorem test_decode_ignore_80 : decode (.rx ⟨.idle, 0⟩ 0b10000000) = .ok (.ignore 0x80) := by rfl
theorem test_decode_ignore_86 : decode (.rx ⟨.idle, 0⟩ 0b10000110) = .ok (.ignore 0x86) := by rfl
theorem test_decode_chanA0_of_85 : decode (.rx ⟨.channelRequest, 0⟩ 0b10000101) = .ok (.chanA0 0x85) := by rfl
theorem test_decode_chanA1_of_84 : decode (.rx ⟨.channelRequest, 1⟩ 0b10000100) = .ok (.chanA1 0x84) := by rfl
theorem test_decode_setstatD0 : decode (.rx ⟨.setStatusRequest, 0⟩ 0b11111111) = .ok (.setstatD0 0xFF) := by rfl
theorem test_decode_setstatD1 : decode (.rx ⟨.setStatusRequest, 1⟩ 0b00000000) = .ok (.setstatD1 0x00) := by rfl
theorem test_decode_getstatQ01 : decode (.rx ⟨.getStatusRequest, 0⟩ 0b00000001) = .ok .getstatQ01 := by rfl
theorem test_decode_getstatQother : decode (.rx ⟨.getStatusRequest, 0⟩ 0b00000010) = .ok (.getstatQother 0x02) := by rfl
theorem test_decode_segreqPkt : decode (.rx ⟨.segmentRequest, 0⟩ 0b00000011) = .ok (.segreqPkt 0x03) := by rfl
theorem test_decode_segreqId0 : decode (.rx ⟨.segmentRequest, 1⟩ 0b01010110) = .ok (.segreqId0 0x56) := by rfl
theorem test_decode_segreqId1 : decode (.rx ⟨.segmentRequest, 2⟩ 0b00110100) = .ok (.segreqId1 0x34) := by rfl
theorem test_decode_segreqId2 : decode (.rx ⟨.segmentRequest, 3⟩ 0b00010010) = .ok (.segreqId2 0x12) := by rfl
theorem test_decode_hs1 : decode (.rx ⟨.sendSegment, 0⟩ 0b00010000) = .ok .hs1 := by rfl
theorem test_decode_hs1Abort : decode (.rx ⟨.sendSegment, 0⟩ 0b10000100) = .ok (.hs1Abort 0x84) := by rfl
theorem test_decode_hs2 : decode (.rx ⟨.sendSegment, 1⟩ 0b00000110) = .ok .hs2 := by rfl
theorem test_decode_hs2Abort : decode (.rx ⟨.sendSegment, 1⟩ 0b00010000) = .ok (.hs2Abort 0x10) := by rfl
theorem test_decode_ticks : decode (.tick .idle) = .ok .tickIdle ∧ decode (.tick .sending) = .ok .tickData ∧
    decode (.tick .ended) = .ok .tickEnd := ⟨rfl, rfl, rfl⟩
theorem test_decode_reset : decode .reset = .ok .reset := by rfl
theorem test_decode_illegal_point : decode (.rx ⟨.idle, 1⟩ 0x85) = .error (.illegalPoint ⟨.idle, 1⟩) := by rfl

/-- The table words with a fixed byte (spec/opcode_table.json). -/
theorem test_table_words : decodeTableWord 8 0x85 = some .chan ∧ decodeTableWord 8 0x84 = some .segreq ∧
    decodeTableWord 8 0x83 = some .cmd83 ∧ decodeTableWord 8 0x82 = some .getstat ∧ decodeTableWord 8 0x81 = some .setstat ∧
    decodeTableWord 8 0x01 = some .getstatQ01 ∧ decodeTableWord 8 0x10 = some .hs1 ∧ decodeTableWord 8 0x06 = some .hs2 ∧
    decodeTableWord 8 0x00 = some (.ignore 0x00) := by decide

/-- Right after reset the next step runs the placed word's instruction. -/
theorem test_placed_word_runs : ((State.reset.withFetchWord 8 0x10).fetch = some (.ok .hs1)) ∧
    ((State.reset.withFetchWord 8 0x85).fetch = some (.ok .chan)) ∧
    ((State.reset.withFetchWord 0 0).fetch = some (.ok .tickIdle)) := ⟨rfl, rfl, rfl⟩

/-! ### Commands (spec/95_test_vectors.md §2.1) -/

/-- A field of the state a step answers, or of the state itself where it stops. -/
def after (o : Host.Outcome State Fault Refusal) : State :=
  match o with
  | .next t => t
  | .fault _ => base
  | .refused _ => base

theorem test_chan : (after (exec .chan base)).tx = [0x10, 0x06] ∧ (after (exec .chan base)).state = .channelRequest := by decide
theorem test_segreq_cancels : (after (exec .segreq (sendingAt 5))).pz = ⟨false, 0, 0⟩ ∧
    (after (exec .segreq (sendingAt 5))).tx = [0x10, 0x06] := by decide
theorem test_cmd83 : (after (exec .cmd83 base)).tx = [0x10, 0x06, 0xE4] ∧ (after (exec .cmd83 base)).state = .idle := by decide
theorem test_cmd83_keeps_the_run : (after (exec .cmd83 (sendingAt 5))).pz = ⟨true, 0, 5⟩ := by decide
theorem test_getstat : (after (exec .getstat base)).state = .getStatusRequest := by decide
theorem test_setstat : (after (exec .setstat base)).state = .setStatusRequest := by decide
theorem test_ignore : (after (exec (.ignore 0xFF) base)).tx = [] ∧ (after (exec (.ignore 0xFF) base)).state = .idle := by decide

/-! ### Argument bytes (spec/95_test_vectors.md §2.2) -/

theorem test_chanA0 : (after (exec (.chanA0 0x34) (atPoint .channelRequest 0))).chan = 0x0034 ∧
    (after (exec (.chanA0 0x34) (atPoint .channelRequest 0))).substep = 1 := by decide
theorem test_chanA1 : (after (exec (.chanA1 0x12) { atPoint .channelRequest 1 with chan := 0x0034 })).chan = 0x1234 ∧
    (after (exec (.chanA1 0x12) { atPoint .channelRequest 1 with chan := 0x0034 })).tx = [0xE4] := by decide
theorem test_setstatD0 : (after (exec (.setstatD0 0x10) (atPoint .setStatusRequest 0))).substep = 1 := by decide
theorem test_setstatD1 : (after (exec (.setstatD1 0x00) (atPoint .setStatusRequest 1))).tx = [0xE4] ∧
    (after (exec (.setstatD1 0x00) (atPoint .setStatusRequest 1))).state = .idle := by decide
theorem test_getstatQ01_noprompt : (after (exec .getstatQ01 (atPoint .getStatusRequest 0))).tx = [0x1F, 0x10, 0xE1] := by decide
theorem test_getstatQ01_prompt :
    (after (exec .getstatQ01 { atPoint .getStatusRequest 0 with params := { base.params with promptForChannel := true } })).tx =
      [0x9F, 0x10, 0xE1] := by decide
theorem test_getstatQother : (after (exec (.getstatQother 0xFF) (atPoint .getStatusRequest 0))).tx = [0x10, 0xE1] := by decide
theorem test_segreqPkt : (after (exec (.segreqPkt 0x03) (atPoint .segmentRequest 0))).pkt = 0x03 ∧
    (after (exec (.segreqPkt 0x03) (atPoint .segmentRequest 0))).substep = 1 := by decide
theorem test_segreqId0 : (after (exec (.segreqId0 0x56) { atPoint .segmentRequest 1 with seg := 0xAAAAAA })).seg = 0xAAAA56 := by decide
theorem test_segreqId1 : (after (exec (.segreqId1 0x34) { atPoint .segmentRequest 2 with seg := 0xAAAA56 })).seg = 0xAA3456 := by decide

/-- The source's first scenario (spec/95_test_vectors.md S1), its last byte. -/
theorem test_segreqId2_notFound : (after (exec (.segreqId2 0x00) (lastByteState .notFound))).tx = [0xE4, 0x90] ∧
    (after (exec (.segreqId2 0x00) (lastByteState .notFound))).state = .idle ∧
    (after (exec (.segreqId2 0x00) (lastByteState .notFound))).queries = [0x000001] := by decide
/-- spec/95_test_vectors.md §2.5: the whole record of id 0x000001 and payload `[10]`. -/
theorem test_segreqId2_raw : (after (exec (.segreqId2 0x00) (lastByteState (.ok .raw [0x10])))).tx = [0xE4, 0x91] ∧
    (after (exec (.segreqId2 0x00) (lastByteState (.ok .raw [0x10])))).cache.recs = [recordWithDle] := by decide +kernel

/-! ### Handshake, Pacer and reset (spec/95_test_vectors.md §2.3, §2.8, §2.9) -/

theorem test_hs1 : (after (exec .hs1 (atPoint .sendSegment 0))).substep = 1 := by decide
theorem test_hs1Abort : (after (exec (.hs1Abort 0x84) (atPoint .sendSegment 0))).state = .idle ∧
    (after (exec (.hs1Abort 0x84) (atPoint .sendSegment 0))).tx = [] := by decide
theorem test_hs2 : (after (exec .hs2 { atPoint .sendSegment 1 with cache := cached })).pz = ⟨true, 0, 0⟩ := by decide
theorem test_hs2_outOfRange : (after (exec .hs2 { atPoint .sendSegment 1 with cache := cached, pkt := 1 })).fault =
      some (.packetIndexOutOfRange 1 1) ∧
    (after (exec .hs2 { atPoint .sendSegment 1 with cache := cached, pkt := 1 })).substep = 1 := by decide
theorem test_hs2Abort : (after (exec (.hs2Abort 0x10) (atPoint .sendSegment 1))).state = .idle ∧
    (after (exec (.hs2Abort 0x10) (atPoint .sendSegment 1))).pz.active = false := by decide
theorem test_tickIdle : (after (exec .tickIdle base)).tx = [] := by decide
theorem test_tickData_dle : (after (exec .tickData (sendingAt 16))).tx = [0x10, 0x10] ∧
    (after (exec .tickData (sendingAt 16))).pz.cursor = 17 := by decide
theorem test_tickData : (after (exec .tickData (sendingAt 18))).tx = [0xE7] := by decide
theorem test_tickEnd : (after (exec .tickEnd (sendingAt 19))).tx = [0x10, 0xE1] ∧
    (after (exec .tickEnd (sendingAt 19))).pz = ⟨false, 0, 19⟩ := by decide
theorem test_reset : (after (exec .reset { sendingAt 5 with seg := 0x000777, tx := [0x12] })).pz = ⟨false, 0, 0⟩ ∧
    (after (exec .reset { sendingAt 5 with seg := 0x000777, tx := [0x12] })).seg = 0 ∧
    (after (exec .reset { sendingAt 5 with seg := 0x000777, tx := [0x12] })).tx = [0x12] := by decide
theorem test_fault_is_sticky :
    (after (exec .reset { base with fault := some (.packetIndexOutOfRange 1 1), seg := 1 })).seg = 1 := by decide

/-! ### The encoder (spec/95_test_vectors.md §2.5, §2.6, §2.7, §2.10) -/

theorem test_crc_check_value :
    crc16 defaultCrcTable [0x31, 0x32, 0x33, 0x34, 0x35, 0x36, 0x37, 0x38, 0x39] = 0xD64E := by decide +kernel
theorem test_crc_two_bytes : crc16 defaultCrcTable [0x00, 0x00] = 0xE2F0 := by decide +kernel
theorem test_raw_record_doc6 : rawRecords { base.params with headerLayout := .doc6 } 0x123456 [0x41, 0x42, 0x43] =
    [[0x12, 0x34, 0x56, 0x01, 0x7F, 0xFF, 0xFF, 0xFF, 0x7F, 0x80, 0x00, 0x00, 0x00, 0xB1, 0x00, 0x00,
      0x41, 0x42, 0x43, 0xEA, 0xE6]] := by decide +kernel
theorem test_clock_record : clockRecords base.params ⟨2, 11, 11, 16, 52, 0⟩ =
    [[0x7F, 0xFF, 0xFF, 0x00, 0x01, 0x7F, 0xFF, 0xFF, 0xFF, 0x7F, 0x80, 0xB1, 0x00, 0x00, 0x00, 0x00,
      0x02, 0x02, 0x03, 0x54, 0x0B, 0x0B, 0x10, 0x34, 0x00, 0x30, 0x84]] := by decide +kernel
theorem test_container : passThrough base.params
      [0x14, 0x00, 0x00, 0x00, 0x02, 0x00, 0x01, 0x7F, 0xFF, 0xFF, 0xFF, 0x7F, 0x80, 0xB1, 0x00, 0x00, 0x00, 0x00, 0x10, 0x20,
        0x00, 0x00, 0xEE, 0xEE, 0xEE] =
    .ok [[0x00, 0x00, 0x02, 0x00, 0x01, 0x7F, 0xFF, 0xFF, 0xFF, 0x7F, 0x80, 0xB1, 0x00, 0x00, 0x00, 0x00, 0x10, 0x20,
      0x6B, 0xF5]] := by decide +kernel
theorem test_container_lone_byte : passThrough base.params [0xEE] = .error .malformedRecord := by rfl
theorem test_container_too_large : passThrough base.params [0xF2, 0x03, 0x00] = .error .malformedRecord := by rfl
theorem test_container_too_small : passThrough base.params ([0x11, 0x00] ++ List.replicate 17 0) = .error .malformedRecord := by rfl
theorem test_container_past_the_end : passThrough base.params ([0x14, 0x00] ++ List.replicate 10 0) = .error .malformedRecord := by rfl

/-! ### Witnesses: the hypotheses of each statement can be met -/

theorem witness_DecodeTableRowByRow : ∃ b : Byte, b ≠ 0x85 ∧ b ≠ 0x84 ∧ b ≠ 0x83 ∧ b ≠ 0x82 ∧ b ≠ 0x81 ∧ b ≠ 0x01 ∧ b ≠ 0x10 ∧
    b ≠ 0x06 := ⟨0x86, by decide⟩

theorem witness_DecodeOfEncodeReturnsInstruction : Instr.wellFormed (.ignore 0x86) = true ∧
    Instr.wellFormed (.hs2Abort 0x07) = true := by decide

theorem witness_DecodedEntryIsTheEncoding : decode (.rx ⟨.sendSegment, 1⟩ 0x07) = .ok (.hs2Abort 0x07) := rfl

theorem witness_StepRunsTheDecodedInstruction :
    ({ base with inbox := [.rx 0x85] } : State).fault = none ∧
    ({ base with inbox := [.rx 0x85] } : State).inbox = .rx 0x85 :: [] ∧
    decode (.rx ⟨.idle, 0⟩ 0x85) = .ok .chan := ⟨rfl, rfl, rfl⟩

theorem witness_PacerConditionOfATick : base.pacerPhase = .idle ∧ (sendingAt 18).pacerPhase = .sending ∧
    (sendingAt 19).pacerPhase = .ended ∧ (sendingAt 20).pacerPhase = .pastEnd := by decide

theorem witness_FaultedMachineIgnoresEveryEvent :
    ({ base with fault := some (.packetIndexOutOfRange 0 0) } : State).fault ≠ none := by decide

theorem witness_MachineHoldsItsStateWithoutEvents : State.reset.inbox = [] := rfl

/-- A state with a run under way meets the invariant, and a step goes on from it. -/
theorem witness_InvariantKeptByEveryStep : (sendingAt 16).Inv ∧ ∃ t, step (sendingAt 16) = .next t where
  left :=
    { pointLegal := rfl
      cacheInv :=
        { emptyWithoutId := by simp [sendingAt, cached]
          lengths := by decide
          crcs := by
            intro r hr
            have : r = recordWithDle := by simpa [sendingAt, cached] using hr
            subst this
            unfold crcHolds
            decide +kernel
          clockIsOne := by simp [sendingAt, cached] }
      pacerInv := { cursorBound := by decide, activeRecord := fun _ => ⟨recordWithDle, rfl, by decide⟩ }
      quietExchange := by simp [sendingAt, base, State.reset]
      faultOrigin := by simp [sendingAt, base, State.reset] }
  right := ⟨_, rfl⟩

theorem witness_StepCompletesUnderTheInvariant : ∃ s : State, s.Inv ∧ s.inbox = [] := ⟨_, witness_InvariantKeptByEveryStep.1, rfl⟩

theorem witness_RecordLengthsKeptByEveryStep :
    (∀ r ∈ (sendingAt 16).cache.recs, 18 ≤ r.length ∧ r.length ≤ 1009) ∧ ∃ t, step (sendingAt 16) = .next t :=
  ⟨by decide, _, rfl⟩

theorem witness_ParametersNeverChange : ∃ t, step { base with inbox := [.rx 0x85] } = .next t := ⟨_, rfl⟩

theorem witness_StepAppendsToTheTransmitStream :
    ∃ t, step { base with inbox := [.rx 0x85, .tick] } = .next t ∧ t.tx = [0x10, 0x06] ∧ t.inbox = [.tick] :=
  ⟨_, rfl, by decide, by decide⟩

theorem witness_WhichInstructionWritesWhichRegister : ∃ t, exec (.chanA0 0x34) base = .next t ∧ t.chan ≠ base.chan :=
  ⟨_, rfl, by decide⟩

theorem witness_WhatStartsAndStopsThePacer :
    (∃ t, exec .hs2 { base with cache := cached } = .next t ∧ base.pz.active = false ∧ t.pz.active = true) ∧
    (∃ t, exec .tickEnd (sendingAt 19) = .next t ∧ (sendingAt 19).pz.active = true ∧ t.pz.active = false) :=
  ⟨⟨_, rfl, by decide, by decide⟩, ⟨_, rfl, by decide, by decide⟩⟩

theorem witness_AtMostOneOracleQueryPerStep :
    (∃ t, exec (.segreqId2 0x00) (lastByteState .notFound) = .next t ∧ t.queries = [0x000001]) ∧
    (∃ t, exec (.segreqId2 0x7F) { base with seg := 0x00FFFF } = .next t ∧ t.clockReads = 1) :=
  ⟨⟨_, rfl, by decide⟩, ⟨_, rfl, by decide⟩⟩

/-- The hypothesis `s.fault = none`, which is the only one of ResetWritesEveryRegister, CommandBytesInIdle,
SegmentRequestCancelsThePacer, IdBytesAreStoredOnArrival, StatusBytesAreDiscarded and PacketIndexByte. -/
theorem witness_live_state : base.fault = none ∧ (sendingAt 16).fault = none := ⟨rfl, rfl⟩

theorem witness_CancelledRunStaysSilent : (sendingAt 5).fault = none ∧ ∃ t, exec .segreq (sendingAt 5) = .next t := ⟨rfl, _, rfl⟩

theorem witness_StatusQueryReplies :
    ({ base with params := { base.params with promptForChannel := true } } : State).params.promptForChannel = true ∧
    base.params.promptForChannel = false := ⟨rfl, rfl⟩

theorem witness_ChannelExchange :
    ∃ s : State, s.fault = none ∧ s.state = .idle ∧ s.substep = 0 ∧ s.inbox = .rx 0x85 :: .rx 0x85 :: .rx 0x84 :: [.tick] :=
  ⟨{ base with inbox := [.rx 0x85, .rx 0x85, .rx 0x84, .tick] }, rfl, rfl, rfl, rfl⟩

theorem witness_FailedSegmentExchange :
    ∃ s : State, s.fault = none ∧ s.state = .idle ∧ s.substep = 0 ∧
      s.inbox = .rx 0x84 :: .rx 0x00 :: .rx 0x01 :: .rx 0x00 :: .rx 0x00 :: [] ∧
      (0x00 : Byte) ++ (0x00 : Byte) ++ (0x01 : Byte) ≠ (0x7FFFFF : SegId) ∧
      ¬ (s.cache.id = some ((0x00 : Byte) ++ (0x00 : Byte) ++ (0x01 : Byte)) ∧ s.cache.recs ≠ []) ∧
      encodeAnswer s.params ((0x00 : Byte) ++ (0x00 : Byte) ++ (0x01 : Byte))
        (s.backendAnswer ((0x00 : Byte) ++ (0x00 : Byte) ++ (0x01 : Byte))) = .error .notFound :=
  ⟨{ base with inbox := [.rx 0x84, .rx 0x00, .rx 0x01, .rx 0x00, .rx 0x00], backendAnswers := [.notFound] },
    rfl, rfl, rfl, rfl, by decide, by decide, rfl⟩

theorem witness_ClockSegmentRequest : ({ base with seg := 0x00FFFF } : State).fault = none ∧
    ({ base with seg := 0x00FFFF } : State).requestedId 0x7F = 0x7FFFFF := by decide

theorem witness_CacheHitRequest :
    ∃ s : State, s.fault = none ∧ s.requestedId 0x00 ≠ 0x7FFFFF ∧ s.cache.id = some (s.requestedId 0x00) ∧ s.cache.recs ≠ [] :=
  ⟨{ base with seg := 0x000001, cache := cached }, rfl, by decide, by decide, by decide⟩

/-- A cache miss with a backend answer lined up, for the longest raw segment and the shortest. -/
theorem witness_RawSegmentRequest (bytes : List Byte) (h : bytes = [] ∨ bytes = List.replicate 65536 0x00) :
    (lastByteState (.ok .raw bytes)).fault = none ∧ (lastByteState (.ok .raw bytes)).requestedId 0x00 ≠ 0x7FFFFF ∧
    ¬ ((lastByteState (.ok .raw bytes)).cache.id = some ((lastByteState (.ok .raw bytes)).requestedId 0x00) ∧
      (lastByteState (.ok .raw bytes)).cache.recs ≠ []) ∧
    (lastByteState (.ok .raw bytes)).backendAnswer ((lastByteState (.ok .raw bytes)).requestedId 0x00) = .ok .raw bytes ∧
    bytes.length ≤ 65536 := by
  refine ⟨rfl, ?_, ?_, rfl, ?_⟩
  · simp only [State.requestedId, lastByteState]; decide
  · simp [lastByteState, atPoint, base, State.reset]
  · rcases h with rfl | rfl
    · decide
    · rw [List.length_replicate]

theorem witness_ContainerSegmentRequest :
    (lastByteState (.ok .container [])).fault = none ∧ (lastByteState (.ok .container [])).requestedId 0x00 = 0x000001 ∧
    (lastByteState (.ok .container [])).cache.recs = [] ∧
    (lastByteState (.ok .container [])).backendAnswer 0x000001 = .ok .container [] ∧ ([] : List Byte).length ≤ 65536 ∧
    passThrough (lastByteState (.ok .container [])).params [] = .ok [] := ⟨rfl, by decide, rfl, rfl, by decide, rfl⟩

/-- Each of the five failing answers can be lined up. -/
theorem witness_FailedSegmentRequest :
    (lastByteState .notFound).backendAnswer 0x000001 = .notFound ∧
    (lastByteState .tooLarge).backendAnswer 0x000001 = .tooLarge ∧
    (lastByteState .ioError).backendAnswer 0x000001 = .ioError ∧
    ((lastByteState (.ok .raw (List.replicate 65537 0x00))).backendAnswer 0x000001 = .ok .raw (List.replicate 65537 0x00) ∧
      65536 < (List.replicate 65537 (0x00 : Byte)).length) ∧
    ((lastByteState (.ok .container [0xEE])).backendAnswer 0x000001 = .ok .container [0xEE] ∧
      passThrough base.params [0xEE] = .error .malformedRecord) ∧
    (lastByteState .notFound).requestedId 0x00 ≠ 0x7FFFFF ∧
    (lastByteState .notFound).cache.recs = [] :=
  ⟨rfl, rfl, rfl, ⟨rfl, by rw [List.length_replicate]; decide⟩, ⟨rfl, rfl⟩, by decide, rfl⟩

theorem witness_SecondRequestIsACacheHit :
    ∃ t v : State, exec (.segreqId2 0x00) (lastByteState (.ok .raw [0x10])) = .next t ∧ t.state = .sendSegment ∧
      t.cache.recs ≠ [] ∧ t.seg ≠ 0x7FFFFF ∧ t.fault = none ∧ t.requestedId 0x00 = t.seg ∧ exec (.segreqId2 0x00) t = .next v :=
  ⟨_, _, rfl, rfl, fun h => absurd (congrArg List.length h) (by decide +kernel), by decide, rfl, by decide, rfl⟩

theorem witness_RequestAfterAFailureQueriesTheBackend :
    ∃ t v : State, exec (.segreqId2 0x00) (lastByteState .notFound) = .next t ∧ t.state = .idle ∧ t.fault = none ∧
      t.requestedId 0x00 ≠ 0x7FFFFF ∧ exec (.segreqId2 0x00) { t with backendAnswers := [.ioError] } = .next v :=
  ⟨_, _, rfl, rfl, rfl, by decide, rfl⟩

theorem witness_FailureKindOfAnAnswer : 65536 < (List.replicate 65537 (0x00 : Byte)).length ∧
    (List.replicate 65536 (0x00 : Byte)).length ≤ 65536 ∧ passThrough base.params [0xEE] = .error .malformedRecord := by
  refine ⟨?_, ?_, rfl⟩
  · rw [List.length_replicate]; decide
  · rw [List.length_replicate]

theorem witness_RawRecordContents : base.params.headerLayout = .nabu := rfl

theorem witness_RawRecordContentsInTheOtherLayout : ({ base.params with headerLayout := .doc6 } : Params).headerLayout = .doc6 := rfl

/-- The first, a middle and the last record of a 1983-byte segment exist, and no fourth. -/
theorem witness_RawRecordCountAndLengths :
    (∀ k < 3, ∃ r, (rawRecords base.params 0x000001 (List.replicate 1983 0x00))[k]? = some r) ∧
    (rawRecords base.params 0x000001 (List.replicate 1983 0x00))[3]? = none := by
  have h : (rawRecords base.params 0x000001 (List.replicate 1983 0x00)).length = 3 := by
    rw [rawRecords_length, List.length_replicate]; decide
  exact ⟨fun k hk => ⟨_, List.getElem?_eq_getElem (by omega)⟩, List.getElem?_eq_none (by omega)⟩

/-- The only record of a one-byte segment exists. -/
theorem witness_RawRecordTypeBytes : ∃ r, (rawRecords base.params 0x000001 [0x10])[0]? = some r := ⟨_, rfl⟩

theorem witness_EveryEncodedRecordHoldsItsCrc :
    (∃ r, r ∈ rawRecords base.params 0x000001 [0x10]) ∧ (∃ r, r ∈ clockRecords base.params ⟨0, 0, 0, 0, 0, 0⟩) ∧
    ∃ recs r, passThrough base.params (0x12 :: 0x00 :: List.replicate 18 0x00) = .ok recs ∧ r ∈ recs :=
  ⟨⟨_, List.mem_cons_self⟩, ⟨_, List.mem_cons_self⟩, ⟨_, _, rfl, List.mem_cons_self⟩⟩

theorem witness_RestampChangesOnlyTheCrc : 2 ≤ recordWithDle.length ∧ crcHolds defaultCrcTable recordWithDle :=
  ⟨by decide, by unfold crcHolds; decide +kernel⟩

/-- Records of the shortest and the longest length that are not final, and a final one. -/
theorem witness_PassThroughReadsItsContainer :
    (∀ r ∈ [List.replicate 18 (0x00 : Byte), List.replicate 1009 0x00],
      18 ≤ r.length ∧ r.length ≤ 1009 ∧ isFinalRecord .nabu r = false) ∧
    18 ≤ recordWithDle.length ∧ recordWithDle.length ≤ 1009 ∧ isFinalRecord .nabu recordWithDle = true := by
  refine ⟨fun r hr => ?_, by decide, by decide, by decide⟩
  rcases List.mem_pair.mp hr with rfl | rfl <;> rw [List.length_replicate] <;> exact ⟨by decide, by decide, rfl⟩

/-- A block size just above the limit, just below it, and one byte past the end. -/
theorem witness_PassThroughFailsOnAMalformedBlock :
    1009 < (0xF2 : Byte).toNat + 256 * (0x03 : Byte).toNat ∧ (0x11 : Byte).toNat + 256 * (0x00 : Byte).toNat < 18 ∧
    (List.replicate 17 (0x00 : Byte)).length < (0x12 : Byte).toNat + 256 * (0x00 : Byte).toNat := by decide

theorem witness_HandshakeBytes : ({ base with cache := cached } : State).fault = none ∧ ({ base with cache := cached } : State).pkt.toNat < cached.recs.length := by decide

/-- The first index past the cache, and any index of an empty cache. -/
theorem witness_PacketIndexOutOfRangeFault :
    ({ base with cache := cached, pkt := 1 } : State).fault = none ∧ base.fault = none ∧
    cached.recs.length ≤ ({ base with cache := cached, pkt := 1 } : State).pkt.toNat ∧ base.cache.recs.length ≤ base.pkt.toNat := by
  decide

/-- The first, a doubled and the last byte of a record, its end, and an inactive Pacer. -/
theorem witness_TicksOfThePacer :
    (sendingAt 0).fault = none ∧ (sendingAt 0).pz.active = true ∧ base.pz.active = false ∧
    (sendingAt 0).cache.recs[(sendingAt 0).pz.idx.toNat]? = some recordWithDle ∧
    recordWithDle[(sendingAt 0).pz.cursor.toNat]? = some 0x00 ∧ recordWithDle[(sendingAt 16).pz.cursor.toNat]? = some 0x10 ∧
    recordWithDle[(sendingAt 18).pz.cursor.toNat]? = some 0xE7 ∧ (sendingAt 19).pz.cursor.toNat = recordWithDle.length := by decide

theorem witness_DataTickWithoutAByteStops : base.fault = none ∧ base.cache.recs.readByte base.pz.idx.toNat base.pz.cursor.toNat = none := by decide

theorem witness_UncancelledRunSendsTheEscapedRecord :
    ∃ s : State, s.fault = none ∧ s.pz.active = true ∧ s.pz.cursor = 0 ∧ s.cache.recs[s.pz.idx.toNat]? = some recordWithDle ∧
      recordWithDle.length ≤ 1009 ∧ s.inbox = List.replicate (recordWithDle.length + 1) .tick ++ [.rx 0x85] :=
  ⟨{ sendingAt 0 with inbox := List.replicate 20 .tick ++ [.rx 0x85] }, rfl, rfl, rfl, rfl, by decide, rfl⟩

theorem witness_EscapedRecordIsRecoverable :
    escapeRecord [0x10] ++ [0x10, 0xE1] ++ [0x06] = escapeRecord [0x10] ++ [0x10, 0xE1] ++ [0x06] := rfl

/-- Every family of the frame statements has a state from which it answers a next state. -/
theorem witness_frames : (∃ t, exec .segreq (sendingAt 5) = .next t) ∧ (∃ t, exec (.chanA1 0x12) base = .next t) ∧
    (∃ t, exec (.segreqId2 0x00) (lastByteState .notFound) = .next t) ∧ (∃ t, exec .hs2 base = .next t) ∧
    (∃ t, exec .hs2 { base with cache := cached } = .next t) ∧ (∃ t, exec .tickData (sendingAt 16) = .next t) :=
  ⟨⟨_, rfl⟩, ⟨_, rfl⟩, ⟨_, rfl⟩, ⟨_, rfl⟩, ⟨_, rfl⟩, ⟨_, rfl⟩⟩

end Sys2Proof.Tests
end

section
/-! The family of the machine's state: the invariant `State.Inv` at reset and under every step, the constant parameters, and
which instruction may write which register. The invariant is proved operation by operation: one rule for each named update of
the state says under which condition it keeps the invariant, and an instruction's case is the chain of its updates' rules. -/

namespace Sys2Proof.Machine

/-! ### What a decoded byte says about the point of control (spec/30_encoding.md R45) -/

theorem encode_decodeCommand (b : Byte) : encode (decodeCommand b) = .rx ⟨.idle, 0⟩ b := by
  unfold decodeCommand
  split_ifs <;> simp_all [encode]

/-- A row of the decode table is found again from the instruction it gives. -/
theorem encode_of_decode {k : Key} {i : Instr} (h : decode k = .ok i) : encode i = k := by
  cases k with
  | rx p b =>
    obtain ⟨st, n⟩ := p
    cases st with
    | idle =>
      simp only [decode, decodeRx] at h
      split_ifs at h with hn
      cases h
      rw [encode_decodeCommand, hn]
    | channelRequest | setStatusRequest | segmentRequest | getStatusRequest | sendSegment =>
      simp only [decode, decodeRx] at h
      split_ifs at h <;> cases h <;> simp_all [encode]
  | tick ph => cases ph <;> cases h <;> rfl
  | reset => cases h; rfl

/-- An event decoded to the instruction of a byte row arrived at that row's point of control. -/
theorem State.point_of_decode {s : State} {e : Event} {i : Instr} {p : Point} {b : Byte}
    (h : decode (s.key e) = .ok i) (hi : encode i = .rx p b) : s.point = p := by
  have hk := (encode_of_decode h).symm.trans hi
  cases e <;> cases hk
  rfl

/-! ### The registers after a whole segment request (spec/41_argument_states.md R67) -/

/-- The fourth `SegmentRequest` byte leaves the other pending registers, the Pacer and the fault alone. -/
theorem State.requestSegment_frame (s : State) (b : Byte) :
    (s.requestSegment b).chan = s.chan ∧ (s.requestSegment b).pkt = s.pkt ∧
      (s.requestSegment b).pz = s.pz ∧ (s.requestSegment b).fault = s.fault := by
  rcases requestSegment_cases s b with ⟨-, e⟩ | ⟨-, -, e⟩ | ⟨-, -, _, -, e⟩ | ⟨-, -, _, -, e⟩ <;>
    rw [e] <;> exact ⟨rfl, rfl, rfl, rfl⟩

/-- A byte that reads at all is inside an existing record. -/
theorem Memory.exists_record_of_readByte {m : Memory} {i off : Nat} {b : Byte} (h : m.readByte i off = some b) :
    ∃ r, m[i]? = some r ∧ off < r.length := by
  rw [Memory.readByte_eq, Option.bind_eq_some_iff] at h
  obtain ⟨r, hr, hb⟩ := h
  exact ⟨r, hr, (List.getElem?_eq_some_iff.1 hb).1⟩

/-! ### The parts of the invariant -/

theorem CacheInv.empty (p : Params) : CacheInv p ⟨none, []⟩ where
  emptyWithoutId _ := rfl
  lengths := Memory.wf_nil
  crcs := by simp
  clockIsOne := by simp

/-- The clock segment's records meet the cache's invariant (spec/42_pipeline.md R85). -/
theorem CacheInv.clock (p : Params) (c : ClockTime) : CacheInv p ⟨some clockId, clockRecords p c⟩ where
  emptyWithoutId := by simp
  lengths := rawRecords_wf _ _ _
  crcs _ hr := crcHolds_rawRecords hr
  clockIsOne _ := clockRecords_length p c

/-- So do the records of any other id's answer (spec/42_pipeline.md R73, R88). -/
theorem CacheInv.answer {p : Params} {id : SegId} {a : BackendResult} {recs : List Record} (hid : id ≠ clockId)
    (h : encodeAnswer p id a = .ok recs) : CacheInv p ⟨some id, recs⟩ where
  emptyWithoutId := by simp
  lengths := encodeAnswer_wf h
  crcs := encodeAnswer_crcHolds h
  clockIsOne hc := absurd (Option.some.inj hc) hid

/-- An inactive Pacer asks nothing of the cache. -/
theorem PacerInv.inactive {c : Cache} {pz : Pacer} (hb : pz.cursor.toNat ≤ maxRecord) (ha : pz.active = false) :
    PacerInv c pz where
  cursorBound := hb
  activeRecord h := by simp [ha] at h

/-! ### The invariant while no fault is set, operation by operation -/

/-- The invariant of a state in which no fault is set; every event that has an effect starts from one (R100). -/
structure State.LiveInv (s : State) : Prop extends s.Inv where
  live : s.fault = none

namespace State.LiveInv

variable {s t : State}

/-- Without a fault the clause on the fault's origin holds of itself. -/
theorem of_live (hpoint : s.point.legal = true) (hcache : CacheInv s.params s.cache) (hpz : PacerInv s.cache s.pz)
    (hquiet : s.state = .segmentRequest ∨ s.state = .sendSegment → s.pz.active = false) (hlive : s.fault = none) :
    s.LiveInv where
  pointLegal := hpoint
  cacheInv := hcache
  pacerInv := hpz
  quietExchange := hquiet
  faultOrigin := by simp [hlive]
  live := hlive

/-- The output, the inputs and the pending registers are not in the live invariant: an update of them alone keeps it. -/
theorem congr (h : s.LiveInv) (hpoint : t.point = s.point) (hcache : t.cache = s.cache) (hparams : t.params = s.params)
    (hpz : t.pz = s.pz) (hfault : t.fault = s.fault) : t.LiveInv := by
  have hstate : t.state = s.state := congrArg Point.state hpoint
  refine of_live ?_ ?_ ?_ ?_ (hfault.trans h.live)
  · rw [hpoint]; exact h.pointLegal
  · rw [hcache, hparams]; exact h.cacheInv
  · rw [hcache, hpz]; exact h.pacerInv
  · rw [hstate, hpz]; exact h.quietExchange

theorem popEvent (h : s.LiveInv) : s.popEvent.LiveInv := h.congr rfl rfl rfl rfl rfl
theorem emit (h : s.LiveInv) (l : List Byte) : (s.emit l).LiveInv := h.congr rfl rfl rfl rfl rfl
theorem setChan (h : s.LiveInv) (v : Word16) : (s.setChan v).LiveInv := h.congr rfl rfl rfl rfl rfl
theorem setPkt (h : s.LiveInv) (v : Byte) : (s.setPkt v).LiveInv := h.congr rfl rfl rfl rfl rfl
theorem setSeg (h : s.LiveInv) (v : SegId) : (s.setSeg v).LiveInv := h.congr rfl rfl rfl rfl rfl
theorem afterClock (h : s.LiveInv) : s.afterClock.LiveInv := h.congr rfl rfl rfl rfl rfl
theorem afterQuery (h : s.LiveInv) (id : SegId) : (s.afterQuery id).LiveInv := h.congr rfl rfl rfl rfl rfl

/-- The first sub-step of every state is legal, and a state of the segment exchange is entered with the Pacer inactive. -/
theorem enter (h : s.LiveInv) {p : ProtoState}
    (hquiet : p = .segmentRequest ∨ p = .sendSegment → s.pz.active = false) : (s.enter p).LiveInv :=
  of_live (by cases p <;> rfl) h.cacheInv h.pacerInv hquiet h.live

theorem enterIdle (h : s.LiveInv) : (s.enter .idle).LiveInv := h.enter (by simp)

theorem advance (h : s.LiveInv) {p : ProtoState} {n : BitVec 8} (hp : s.point = ⟨p, n⟩)
    (hn : Point.legal ⟨p, n + 1⟩ = true) : s.advance.LiveInv := by
  cases hp
  exact of_live hn h.cacheInv h.pacerInv h.quietExchange h.live

/-- The cache may be written while no run reads it (spec/42_pipeline.md R73). -/
theorem replaceCache (h : s.LiveInv) (hquiet : s.pz.active = false) {id : SegId} {recs : List Record}
    (hc : CacheInv s.params ⟨some id, recs⟩) : (s.replaceCache id recs).LiveInv :=
  of_live h.pointLegal hc (.inactive h.pacerInv.cursorBound hquiet) h.quietExchange h.live

theorem invalidate (h : s.LiveInv) (hquiet : s.pz.active = false) : s.invalidate.LiveInv :=
  of_live h.pointLegal (.empty _) (.inactive h.pacerInv.cursorBound hquiet) h.quietExchange h.live

theorem cancelPacer (h : s.LiveInv) : s.cancelPacer.LiveInv := by
  unfold State.cancelPacer
  split
  · exact of_live h.pointLegal h.cacheInv (.inactive (Nat.zero_le _) rfl) (fun _ => rfl) h.live
  · exact h

theorem stopPacer (h : s.LiveInv) : s.stopPacer.LiveInv :=
  of_live h.pointLegal h.cacheInv (.inactive h.pacerInv.cursorBound rfl) (fun _ => rfl) h.live

/-- A run starts on an existing record, and the handshake ends in the same event (spec/41_argument_states.md R70). -/
theorem startPacer_enterIdle (h : s.LiveInv) {k : BitVec 8} (hk : k.toNat < s.cache.recs.length) :
    ((s.startPacer k).enter .idle).LiveInv :=
  of_live rfl h.cacheInv
    { cursorBound := Nat.zero_le _
      activeRecord := fun _ => ⟨_, List.getElem?_eq_getElem hk, Nat.zero_le _⟩ }
    (by simp) h.live

/-- The cursor may move on past a byte that exists: it stays at or before its record's end (spec/43_pacer.md R91). -/
theorem advanceCursor (h : s.LiveInv) {b : Byte}
    (hb : s.cache.recs.readByte s.pz.idx.toNat s.pz.cursor.toNat = some b) : s.advanceCursor.LiveInv := by
  obtain ⟨r, hr, hlt⟩ := Memory.exists_record_of_readByte hb
  have hlen : r.length ≤ 1009 := (Memory.wf_record h.cacheInv.lengths hr).2
  have hcur : (s.pz.cursor + 1).toNat ≤ r.length := by
    rw [BitVec.toNat_add_of_lt (by simp; omega)]
    exact hlt
  exact of_live h.pointLegal h.cacheInv
    { cursorBound := hcur.trans hlen
      activeRecord := fun _ => ⟨r, hr, hcur⟩ }
    h.quietExchange h.live

theorem resetRegisters (h : s.LiveInv) : s.resetRegisters.LiveInv :=
  of_live rfl (.empty _) (.inactive (Nat.zero_le _) rfl) (fun _ => rfl) h.live

/-- The model fault records the packet index that the second handshake byte met (spec/60_exceptions.md R99). -/
theorem raiseFault (h : s.LiveInv) (hp : s.point = ⟨.sendSegment, 1⟩) (hk : s.cache.recs.length ≤ s.pkt.toNat) :
    (s.raiseFault (.packetIndexOutOfRange s.pkt s.cache.recs.length)).Inv where
  pointLegal := h.pointLegal
  cacheInv := h.cacheInv
  pacerInv := h.pacerInv
  quietExchange := h.quietExchange
  faultOrigin k n he := by
    cases he
    exact ⟨hp, rfl, rfl, hk⟩

/-- The whole of a segment request, in each of its four outcomes, with no run active (spec/41_argument_states.md R67). -/
theorem requestSegment (h : s.LiveInv) (hquiet : s.pz.active = false) (b : Byte) : (s.requestSegment b).LiveInv := by
  have hid (id : SegId) : ((s.setSeg id).emit [doneByte]).LiveInv := (h.setSeg id).emit _
  rcases requestSegment_cases s b with ⟨-, e⟩ | ⟨-, -, e⟩ | ⟨hne, -, recs, ha, e⟩ | ⟨-, -, _, -, e⟩ <;> rw [e]
  · exact (((hid clockId).afterClock.replaceCache hquiet (.clock _ _)).emit _).enter fun _ => hquiet
  · exact ((hid _).emit _).enter fun _ => hquiet
  · exact ((((hid (withSegByte2 s.seg b)).afterQuery _).replaceCache hquiet (.answer hne ha)).emit _).enter fun _ => hquiet
  · exact ((((hid (withSegByte2 s.seg b)).afterQuery _).invalidate hquiet).emit _).enterIdle

end State.LiveInv

/-! ### Every instruction and every step -/

/-- An instruction, run where the decode table gives it, keeps the invariant. -/
theorem exec_keeps_inv {s t : State} {e : Event} {i : Instr} (h : s.LiveInv) (hd : decode (s.key e) = .ok i)
    (hx : exec i s = .next t) : t.Inv := by
  rcases exec_next_cases hx with ⟨-, rfl⟩ | ⟨-, ht⟩
  · exact h.toInv
  cases i <;> simp only at ht
  case hs2 =>
    rcases ht with ⟨hk, rfl⟩ | ⟨hk, rfl⟩
    · exact (h.startPacer_enterIdle hk).toInv
    · exact h.raiseFault (s.point_of_decode hd rfl) hk
  case tickData =>
    obtain ⟨b, hb, rfl⟩ := ht
    exact ((h.emit _).advanceCursor hb).toInv
  all_goals subst ht; apply State.LiveInv.toInv
  case chan | getstat | setstat => exact (h.emit _).enter (by simp)
  case segreq => exact (h.cancelPacer.emit _).enter fun _ => s.cancelPacer_inactive
  case cmd83 | getstatQ01 | getstatQother | setstatD1 => exact (h.emit _).enterIdle
  case ignore | hs1Abort | hs2Abort => exact h.enterIdle
  case chanA0 => exact (h.setChan _).advance (s.point_of_decode hd rfl) rfl
  case chanA1 => exact ((h.setChan _).emit _).enterIdle
  case setstatD0 | hs1 => exact h.advance (s.point_of_decode hd rfl) rfl
  case segreqPkt => exact (h.setPkt _).advance (s.point_of_decode hd rfl) rfl
  case segreqId0 | segreqId1 => exact (h.setSeg _).advance (s.point_of_decode hd rfl) rfl
  case segreqId2 =>
    have hp : s.point = ⟨.segmentRequest, 3⟩ := s.point_of_decode hd rfl
    exact h.requestSegment (h.quietExchange (.inl (congrArg Point.state hp))) _
  case tickIdle => exact h
  case tickEnd => exact (h.emit _).stopPacer
  case reset => exact h.resetRegisters

theorem State.Inv.popEvent {s : State} (h : s.Inv) : s.popEvent.Inv :=
  ⟨h.pointLegal, h.cacheInv, h.pacerInv, h.quietExchange, h.faultOrigin⟩

/-- Settles O10: an event without effect leaves the invariant's registers alone, and a decoded instruction keeps it. -/
theorem invariantKeptByEveryStep : Obligations.InvariantKeptByEveryStep := by
  intro s t hs hstep
  rcases step_cases hstep with ⟨-, rfl⟩ | ⟨hlive, e, rest, i, -, hd, hx⟩
  · exact hs.popEvent
  · rw [← s.popEvent_key] at hd
    exact exec_keeps_inv ⟨hs.popEvent, hlive⟩ hd hx

/-- Settles O9: every register at its reset value, clause by clause. -/
theorem invariantHoldsAtReset : Obligations.InvariantHoldsAtReset :=
  (State.LiveInv.of_live (s := .reset) rfl (.empty _) (.inactive (Nat.zero_le _) rfl) (fun _ => rfl) rfl).toInv

/-- Settles O13: neither taking an event nor an instruction writes the parameters (decision D19). -/
theorem parametersNeverChange : Obligations.ParametersNeverChange := by
  intro s t hstep
  rcases step_cases hstep with ⟨-, rfl⟩ | ⟨-, e, rest, i, -, -, hx⟩
  · rfl
  · exact (exec_frame_environment hx).1

/-- Settles O15: the registers an instruction's updates leave alone, instruction by instruction. -/
theorem whichInstructionWritesWhichRegister : Obligations.WhichInstructionWritesWhichRegister := by
  intro i s t hx
  rcases exec_next_cases hx with ⟨-, rfl⟩ | ⟨-, ht⟩
  · exact ⟨.inl rfl, .inl rfl, .inl rfl, .inl rfl, .inl rfl, .inl rfl⟩
  cases i with
  | segreqId2 b =>
    simp only at ht; subst ht
    obtain ⟨hchan, hpkt, hpz, hfault⟩ := s.requestSegment_frame b
    simp [hchan, hpkt, hpz, hfault]
  | hs2 => rcases ht with ⟨-, rfl⟩ | ⟨-, rfl⟩ <;> simp
  | tickData => obtain ⟨b, -, rfl⟩ := ht; simp
  | _ => simp only at ht; subst ht; simp [State.ackAndEnter, State.finish]

end Sys2Proof.Machine
end

section
/-! The family of the memory: the record store keeps its form and the transmit stream only grows under every step; what a step
runs; the type byte of every raw record and the header in the order `doc6`; and the stop on a byte that does not exist. -/

namespace Sys2Proof.Machine

/-! ### The form of the record store (spec/20_memory.md R34) -/

/-- A segment request leaves a store in its form, in each of its four outcomes: the clock segment, the records as they were,
the records of the answer, or none (spec/41_argument_states.md R67). -/
theorem State.requestSegment_wf {s : State} (h : s.cache.recs.wf = true) (b : Byte) :
    (s.requestSegment b).cache.recs.wf = true := by
  rcases requestSegment_cases s b with ⟨-, e⟩ | ⟨-, -, e⟩ | ⟨-, -, recs, ha, e⟩ | ⟨-, -, _, -, e⟩ <;> rw [e]
  · exact rawRecords_wf _ _ _
  · exact h
  · exact encodeAnswer_wf ha
  · exact Memory.wf_nil

/-- Only the last byte of a segment id and RESET write the cache, and each leaves a store in its form. -/
theorem exec_keeps_wf {i : Instr} {s t : State} (h : s.cache.recs.wf = true) (hx : exec i s = .next t) :
    t.cache.recs.wf = true := by
  rcases exec_next_cases hx with ⟨-, rfl⟩ | ⟨-, ht⟩
  · exact h
  obtain ⟨-, -, -, hcache, -, -⟩ := whichInstructionWritesWhichRegister i s t hx
  rcases hcache with hcache | ⟨b, rfl⟩ | rfl
  · rw [hcache]; exact h
  · rw [show t = s.requestSegment b from ht]; exact State.requestSegment_wf h b
  · rw [show t = s.resetRegisters from ht]; exact Memory.wf_nil

/-- Settles O12: taking an event leaves the store alone, and a decoded instruction keeps its form. -/
theorem recordLengthsKeptByEveryStep : Obligations.RecordLengthsKeptByEveryStep := by
  intro s t hs hstep
  rw [← Memory.wf_iff] at hs ⊢
  rcases step_cases hstep with ⟨-, rfl⟩ | ⟨-, e, rest, i, -, -, hx⟩
  · exact hs
  · exact exec_keeps_wf (s := s.popEvent) hs hx

/-! ### The transmit stream, the inbox and the step (spec/20_memory.md R37, R39) -/

/-- Settles O14: the step takes the event, and the instruction only appends to the stream (no bound: decision D18). -/
theorem stepAppendsToTheTransmitStream : Obligations.StepAppendsToTheTransmitStream := by
  intro s t hstep
  rcases step_cases hstep with ⟨-, rfl⟩ | ⟨-, e, rest, i, -, -, hx⟩
  · exact ⟨⟨[], by simp⟩, rfl⟩
  · obtain ⟨-, hinbox, htx⟩ := exec_frame_environment hx
    exact ⟨htx, hinbox⟩

/-- With no fault and an event lined up, a step runs what the event decodes to (spec/20_memory.md R37). -/
theorem step_of_decode {s : State} {e : Event} {rest : List Event} {i : Instr} (hlive : s.fault = none)
    (hinbox : s.inbox = e :: rest) (hd : decode (s.key e) = .ok i) : step s = exec i s.popEvent := by
  have hfetch : s.fetch = some (.ok i) := by simp [State.fetch, hlive, hinbox, hd]
  rw [step, hfetch]

/-- Settles O5: the obligation's decode entry is `State.key`, kind of event by kind of event. -/
theorem stepRunsTheDecodedInstruction : Obligations.StepRunsTheDecodedInstruction := by
  intro s e rest i hlive hinbox hd
  have hkey : decode (s.key e) = .ok i := by cases e <;> exact hd
  rw [step_of_decode hlive hinbox hkey, State.popEvent, hinbox, List.tail_cons]

/-- Settles O52: the choice of log entry 8, by the instruction's own law. -/
theorem dataTickWithoutAByteStops : Obligations.DataTickWithoutAByteStops :=
  fun _ hlive habsent => execTickData_absent hlive habsent

/-! ### The type byte of a raw record (spec/20_memory.md R32, R33; decision D6) -/

theorem headerBytes_typeOffset (layout : HeaderLayout) (id : SegId) (k o : Nat) (t : Byte) :
    (headerBytes layout id k o t)[typeOffset layout]? = some t := by
  cases layout <;> rfl

/-- The type byte is inside the header, before the chunk and the CRC. -/
theorem rawRecord_typeOffset (p : Params) (id : SegId) (k o : Nat) (c : List Byte) (final : Bool) :
    (rawRecord p id k o c final)[typeOffset p.headerLayout]? = some (typeByte k final) := by
  have hlt : typeOffset p.headerLayout < 16 := by cases p.headerLayout <;> decide
  rw [rawRecord, withCrc, List.append_assoc, List.getElem?_append_left (by simpa using hlt), headerBytes_typeOffset]

/-- Record `k` of a segment, by its position (spec/42_pipeline.md R79, R80). -/
theorem rawRecords_getElem? {p : Params} {id : SegId} {bytes : List Byte} {k : Nat} {r : Record}
    (h : (rawRecords p id bytes)[k]? = some r) :
    k < chunkCount bytes.length ∧
      r = rawRecord p id k (991 * k) (chunk bytes k) (k + 1 == chunkCount bytes.length) := by
  have hk : k < chunkCount bytes.length := by simpa using (List.getElem?_eq_some_iff.1 h).1
  refine ⟨hk, ?_⟩
  simpa [rawRecords, hk] using h.symm

/-- The four type bytes of R33: of the only record, the first of several, the last of several, and one in between. -/
theorem typeByte_eq {k n : Nat} :
    typeByte k (k + 1 == n) =
      if k = 0 then (if n = 1 then 0xB1 else 0xA1) else (if k + 1 = n then 0x30 else 0x20) := by
  by_cases hk : k = 0
  · subst hk
    by_cases hn : n = 1
    · subst hn; rfl
    · simp [typeByte, hn, Ne.symm hn]
  · by_cases hn : k + 1 = n
    · simp [typeByte, hk, hn]
    · simp [typeByte, hk, hn]

/-- Settles O41: the type byte stands at `typeOffset`, and the count of records tells which of the four it is. -/
theorem rawRecordTypeBytes : Obligations.RawRecordTypeBytes := by
  intro p id bytes k r h
  obtain ⟨-, rfl⟩ := rawRecords_getElem? h
  rw [rawRecords_length, ← typeByte_eq]
  exact rawRecord_typeOffset p id k _ _ _

/-! ### A raw record in the order `doc6` (spec/20_memory.md R32, R35) -/

/-- The low byte of a number truncated to 16 bits is the number modulo 256. -/
theorem lowByte_ofNat (n : Nat) : lowByte (BitVec.ofNat 16 n) = BitVec.ofNat 8 n := by
  apply BitVec.eq_of_toNat_eq
  simp only [lowByte, BitVec.extractLsb'_toNat, BitVec.toNat_ofNat, Nat.shiftRight_zero]
  omega

/-- Its high byte is the number divided by 256, modulo 256. -/
theorem highByte_ofNat (n : Nat) : highByte (BitVec.ofNat 16 n) = BitVec.ofNat 8 (n / 256) := by
  apply BitVec.eq_of_toNat_eq
  simp only [highByte, BitVec.extractLsb'_toNat, BitVec.toNat_ofNat, Nat.shiftRight_eq_div_pow]
  omega

/-- Settles O38: the header's fields in the source's own order (decision D6), each split into its bytes. -/
theorem rawRecordContentsInTheOtherLayout : Obligations.RawRecordContentsInTheOtherLayout := by
  intro p id k o c final hlayout
  have hheader : headerBytes p.headerLayout id k o (typeByte k final) =
      [id.extractLsb' 16 8, id.extractLsb' 8 8, id.extractLsb' 0 8, 0x01, 0x7F, 0xFF, 0xFF, 0xFF, 0x7F, 0x80,
        BitVec.ofNat 8 k, BitVec.ofNat 8 (k / 256), BitVec.ofNat 8 k, typeByte k final,
        BitVec.ofNat 8 (o / 256), BitVec.ofNat 8 o] := by
    rw [hlayout, ← lowByte_ofNat k, ← highByte_ofNat k, ← lowByte_ofNat o, ← highByte_ofNat o]
    rfl
  rw [rawRecord, hheader]
  rfl

end Sys2Proof.Machine
end

section
/-! The family of the encoding: decoder and encoder are inverse to each other on the rows of the table and the decoder answers
nowhere else, so every step of the invariant completes; two whole exchanges, byte by byte; a written container is read back, and
an escaped record is recovered. -/

namespace Sys2Proof.Machine

/-! ### Decoder and encoder (spec/30_encoding.md R45) -/

theorem isCommand_eq_false_iff {b : Byte} :
    isCommand b = false ↔ b ≠ 0x85 ∧ b ≠ 0x84 ∧ b ≠ 0x83 ∧ b ≠ 0x82 ∧ b ≠ 0x81 := by
  simp only [isCommand, Bool.or_eq_false_iff, beq_eq_false_iff_ne]
  tauto

/-- In `Idle` a byte that is no command code is ignored (spec/30_encoding.md R48). -/
theorem decodeCommand_of_not_command {b : Byte} (h : isCommand b = false) : decodeCommand b = .ignore b := by
  obtain ⟨h85, h84, h83, h82, h81⟩ := isCommand_eq_false_iff.1 h
  rw [decodeCommand, if_neg h85, if_neg h84, if_neg h83, if_neg h82, if_neg h81]

/-- A row's byte, in the row's point of control, selects the row: no earlier row of the same point takes a byte that a
well-formed instruction carries. -/
theorem decode_encode {i : Instr} (h : i.wellFormed = true) : decode (encode i) = .ok i := by
  cases i with
  | ignore b =>
    have hb : isCommand b = false := by simpa [Instr.wellFormed] using h
    exact congrArg Except.ok (decodeCommand_of_not_command hb)
  | getstatQother b | hs1Abort b | hs2Abort b => exact congrArg Except.ok (if_neg (bne_iff_ne.1 h))
  | _ => rfl

/-- Settles O2: an instruction's own row is the one the decoder takes. -/
theorem decodeOfEncodeReturnsInstruction : Obligations.DecodeOfEncodeReturnsInstruction :=
  fun _ h => decode_encode h

/-- Settles O1: each row is the encoding of the instruction it stands for, and `wellFormed` is the row's condition on its byte. -/
theorem decodeTableRowByRow : Obligations.DecodeTableRowByRow := by
  refine ⟨rfl, rfl, rfl, rfl, rfl, fun b h85 h84 h83 h82 h81 => ?_, fun _ => rfl, fun _ => rfl, fun _ => rfl, fun _ => rfl,
    rfl, fun b h => ?_, fun _ => rfl, fun _ => rfl, fun _ => rfl, fun _ => rfl, rfl, fun b h => ?_, rfl, fun b h => ?_,
    rfl, rfl, rfl, rfl⟩
  · have hb : isCommand b = false := isCommand_eq_false_iff.2 ⟨h85, h84, h83, h82, h81⟩
    exact decode_encode (i := .ignore b) (by simp [Instr.wellFormed, hb])
  · exact decode_encode (i := .getstatQother b) (bne_iff_ne.2 h)
  · exact decode_encode (i := .hs1Abort b) (bne_iff_ne.2 h)
  · exact decode_encode (i := .hs2Abort b) (bne_iff_ne.2 h)

theorem wellFormed_decodeCommand (b : Byte) : (decodeCommand b).wellFormed = true := by
  unfold decodeCommand
  split_ifs with h85 h84 h83 h82 h81
  case neg => simp [Instr.wellFormed, isCommand_eq_false_iff.2 ⟨h85, h84, h83, h82, h81⟩]
  all_goals rfl

/-- The decoder gives an instruction only with a byte that its row admits. -/
theorem wellFormed_of_decode {k : Key} {i : Instr} (h : decode k = .ok i) : i.wellFormed = true := by
  cases k with
  | rx p b =>
    obtain ⟨st, n⟩ := p
    cases st with
    | idle =>
      simp only [decode, decodeRx] at h
      split_ifs at h
      cases h
      exact wellFormed_decodeCommand b
    | channelRequest | setStatusRequest | segmentRequest | getStatusRequest | sendSegment =>
      simp only [decode, decodeRx] at h
      split_ifs at h <;> cases h <;> simp_all [Instr.wellFormed]
  | tick ph => cases ph <;> cases h <;> rfl
  | reset => cases h; rfl

/-- Settles O3: the row is found again from the instruction, and its byte is one the row admits. -/
theorem decodedEntryIsTheEncoding : Obligations.DecodedEntryIsTheEncoding :=
  fun _ _ h => ⟨encode_of_decode h, wellFormed_of_decode h⟩

/-! ### Where the decoder answers (spec/10_state.md R17, spec/43_pacer.md R90 to R92; log entry 16) -/

/-- Every instruction's row is a legal entry. -/
theorem encode_legal (i : Instr) : (encode i).legal = true := by
  cases i <;> rfl

/-- A byte at a legal point of control has a row. -/
theorem exists_decodeRx {p : Point} (h : p.legal = true) (b : Byte) : ∃ i, decodeRx p b = .ok i := by
  obtain ⟨st, n⟩ := p
  have hn : n.toNat ≤ st.lastSubstep := of_decide_eq_true h
  cases st <;> simp only [ProtoState.lastSubstep] at hn
  case idle | getStatusRequest =>
    obtain rfl : n = 0 := by bv_omega
    exact ⟨_, rfl⟩
  case channelRequest | setStatusRequest | sendSegment =>
    obtain rfl | rfl : n = 0 ∨ n = 1 := by bv_omega
    all_goals exact ⟨_, rfl⟩
  case segmentRequest =>
    obtain rfl | rfl | rfl | rfl : n = 0 ∨ n = 1 ∨ n = 2 ∨ n = 3 := by bv_omega
    all_goals exact ⟨_, rfl⟩

/-- The decoder answers on the legal entries, and on no other. -/
theorem exists_decode_iff_legal (k : Key) : (∃ i, decode k = .ok i) ↔ k.legal = true := by
  constructor
  · rintro ⟨i, hi⟩
    rw [← encode_of_decode hi]
    exact encode_legal i
  · intro h
    cases k with
    | rx p b => exact exists_decodeRx h b
    | tick ph =>
      cases ph with
      | idle | sending | ended => exact ⟨_, rfl⟩
      | noRecord | pastEnd => cases h
    | reset => exact ⟨_, rfl⟩

/-- Settles O4: the legal entries, point by point and condition by condition. -/
theorem decodeAnswersExactlyOnTheTable : Obligations.DecodeAnswersExactlyOnTheTable := by
  intro k
  rw [exists_decode_iff_legal]
  cases k with
  | rx p b =>
    obtain ⟨st, n⟩ := p
    rw [Key.legal, Point.legal, decide_eq_true_iff]
    cases st <;> simp [ProtoState.lastSubstep]
  | tick ph => cases ph <;> simp [Key.legal]
  | reset => simp [Key.legal]

/-! ### The invariant completes every step (spec/30_encoding.md R45, spec/43_pacer.md R91) -/

/-- The condition of an active Pacer whose record exists, by its cursor. -/
theorem State.pacerPhase_of_record {s : State} {r : Record} (ha : s.pz.active = true)
    (hr : s.cache.recs[s.pz.idx.toNat]? = some r) :
    s.pacerPhase = if s.pz.cursor.toNat < r.length then .sending
      else if s.pz.cursor.toNat = r.length then .ended else .pastEnd := by
  simp only [State.pacerPhase, ha, hr, if_true]

/-- Under the invariant every event meets a row of the decode table. -/
theorem State.Inv.key_legal {s : State} (h : s.Inv) (e : Event) : (s.key e).legal = true := by
  cases e with
  | rx b => exact h.pointLegal
  | tick =>
    cases ha : s.pz.active with
    | false => simp [State.key, State.pacerPhase, ha, Key.legal]
    | true =>
      obtain ⟨r, hr, hle⟩ := h.pacerInv.activeRecord ha
      rw [State.key, State.pacerPhase_of_record ha hr]
      obtain hlt | heq := Nat.lt_or_eq_of_le hle
      · rw [if_pos hlt]; rfl
      · rw [if_neg heq.not_lt, if_pos heq]; rfl
  | reset => rfl

/-- The byte a data tick sends exists (spec/43_pacer.md R91). -/
theorem State.readByte_of_sending {s : State} (h : s.pacerPhase = .sending) :
    s.cache.recs.readByte s.pz.idx.toNat s.pz.cursor.toNat ≠ none := by
  unfold State.pacerPhase at h
  split_ifs at h
  split at h
  · cases h
  · rename_i r hr
    split_ifs at h with hlt
    rw [Memory.readByte_of_record hr, List.getElem?_eq_getElem hlt]
    simp

/-- An instruction, run where the decode table gives it, answers a next state. -/
theorem exists_exec_of_decode {s : State} {e : Event} {i : Instr} (h : decode (s.key e) = .ok i) :
    ∃ t, exec i s = .next t := by
  rcases exec_next_or_absent i s with hx | ⟨rfl, -, habsent⟩
  · exact hx
  · have hk : s.key e = .tick .sending := (encode_of_decode h).symm
    cases e with
    | tick => exact absurd habsent (State.readByte_of_sending (by injection hk))
    | rx b => cases hk
    | reset => cases hk

/-- Settles O11: an event without effect is taken, and any other has a row whose instruction answers a next state. -/
theorem stepCompletesUnderTheInvariant : Obligations.StepCompletesUnderTheInvariant := by
  intro s hs
  cases hf : s.fault with
  | some f => exact ⟨s.popEvent, by simp [step, State.fetch, hf]⟩
  | none =>
    cases hin : s.inbox with
    | nil => exact ⟨s.popEvent, by simp [step, State.fetch, hf, hin]⟩
    | cons e rest =>
      obtain ⟨i, hd⟩ := (exists_decode_iff_legal _).2 (hs.key_legal e)
      rw [step_of_decode hf hin hd]
      rw [← s.popEvent_key] at hd
      exact exists_exec_of_decode hd

/-! ### Whole exchanges (spec/30_encoding.md R46) -/

/-- A run goes on from the next state of the instruction that its oldest event decodes to. -/
theorem State.run_of_decode {s t : State} {e : Event} {rest : List Event} {i : Instr} (hlive : s.fault = none)
    (hinbox : s.inbox = e :: rest) (hd : decode (s.key e) = .ok i) (hx : exec i s.popEvent = .next t) (n : Nat) :
    s.run (n + 1) = t.run n :=
  State.run_succ ((step_of_decode hlive hinbox hd).trans hx) n

/-- Settles O27: CHAN, then a byte into each half of `chan`. -/
theorem channelExchange : Obligations.ChannelExchange := by
  intro s a0 a1 rest hlive hstate hsub hinbox
  -- With the fields written out, each event's entry of the decode table reduces.
  cases s
  dsimp only at hlive hstate hsub hinbox
  subst hlive hstate hsub hinbox
  rw [State.run_of_decode (i := .chan) rfl rfl rfl (execChan_live rfl),
    State.run_of_decode (i := .chanA0 a0) rfl rfl rfl (execChanA0_live rfl a0),
    State.run_of_decode (i := .chanA1 a1) rfl rfl rfl (execChanA1_live rfl a1), State.run_zero]
  simp [State.popEvent, State.ackAndEnter, State.emit, State.enter, State.setChan, State.advance, State.finish,
    channel_assembled, ackBytes, doneByte]

/-- The cancel writes the Pacer alone (spec/40_commands.md R56). -/
theorem State.cancelPacer_eq (s : State) : s.cancelPacer = { s with pz := s.cancelPacer.pz } := by
  unfold State.cancelPacer
  split <;> rfl

/-- SEGREQ and its first three argument bytes: the run is cancelled, the ack sent, and all but the last id byte placed
(decisions D16, D20). -/
theorem State.run_segmentArguments {s : State} {p s0 s1 : Byte} {rest : List Event} (hlive : s.fault = none)
    (hstate : s.state = .idle) (hsub : s.substep = 0)
    (hinbox : s.inbox = .rx 0x84 :: .rx p :: .rx s0 :: .rx s1 :: rest) (n : Nat) :
    s.run (n + 4) = State.run { s with
      state := .segmentRequest
      substep := 3
      pkt := p
      seg := withSegByte1 (withSegByte0 s.seg s0) s1
      pz := s.cancelPacer.pz
      tx := s.tx ++ ackBytes
      inbox := rest } n := by
  -- With the fields written out, each event's entry of the decode table reduces.
  cases s
  dsimp only at hlive hstate hsub hinbox
  subst hlive hstate hsub hinbox
  rw [State.run_of_decode (i := .segreq) rfl rfl rfl (execSegreq_live rfl), State.cancelPacer_eq,
    State.run_of_decode (i := .segreqPkt p) rfl rfl rfl (execSegreqPkt_live rfl p),
    State.run_of_decode (i := .segreqId0 s0) rfl rfl rfl (execSegreqId0_live rfl s0),
    State.run_of_decode (i := .segreqId1 s1) rfl rfl rfl (execSegreqId1_live rfl s1)]
  simp [State.popEvent, State.ackAndEnter, State.emit, State.enter, State.setPkt, State.setSeg, State.advance]

/-- The last id byte, when the pipeline fails: DONE, one query, the cache emptied, the failure taken (decision D10). -/
theorem State.requestSegment_of_failure {s : State} {b : Byte} {id : SegId} {kind : FailKind}
    (hid : withSegByte2 s.seg b = id) (hclock : id ≠ clockId) (hmiss : s.cacheHit id = false)
    (hfail : encodeAnswer s.params id (s.backendAnswer id) = .error kind) :
    s.requestSegment b = ((((s.setSeg id).emit [doneByte]).afterQuery id).invalidate).takeFailure kind := by
  subst hid
  rcases requestSegment_cases s b with ⟨hid, -⟩ | ⟨-, hhit, -⟩ | ⟨-, -, _, hok, -⟩ | ⟨-, -, _, -, e⟩
  · exact absurd hid hclock
  · simp [hmiss] at hhit
  · simp [hfail] at hok
  · exact e

/-- At its own point of control the last id byte runs the request. -/
theorem State.run_requestSegment {s : State} {b : Byte} {rest : List Event} (hlive : s.fault = none)
    (hpoint : s.point = ⟨.segmentRequest, 3⟩) (hinbox : s.inbox = .rx b :: rest) (n : Nat) :
    s.run (n + 1) = (s.popEvent.requestSegment b).run n :=
  State.run_of_decode (i := .segreqId2 b) hlive hinbox (by rw [State.key, hpoint]; rfl)
    (execSegreqId2_live (s := s.popEvent) hlive b) n

/-- Settles O28: the arguments up to the last one, then the request that fails. -/
theorem failedSegmentExchange : Obligations.FailedSegmentExchange := by
  intro s p s0 s1 s2 rest kind hlive hstate hsub hinbox hclock hmiss hfail
  -- `by exact` waits until the goal has fixed the state that the three facts are about.
  have hid := segment_assembled s.seg s0 s1 s2
  rw [← State.cacheHit_iff, Bool.not_eq_true] at hmiss
  rw [State.run_segmentArguments hlive hstate hsub hinbox 1, State.run_requestSegment (by exact hlive) rfl rfl,
    State.run_zero, State.requestSegment_of_failure (by exact hid) hclock (by exact hmiss) (by exact hfail)]
  simp [State.popEvent, State.setSeg, State.emit, State.afterQuery, State.invalidate, State.takeFailure, State.enter,
    ackBytes, doneByte, segFailByte, hstate, hsub]

/-! ### A written container is read back (spec/42_pipeline.md R82 to R84) -/

/-- The two size bytes of a block, as numbers, are the little-endian size that `containerBytes` writes (R51). -/
theorem containerBytes_eq (recs : List Record) :
    (recs.flatMap fun r => [BitVec.ofNat 8 r.length, BitVec.ofNat 8 (r.length / 256)] ++ r) = containerBytes recs := by
  simp only [containerBytes, littleEndian, lowByte_ofNat, highByte_ofNat]

theorem passThrough_nil (p : Params) : passThrough p [] = .ok [] := rfl

theorem containerBytes_cons (r : Record) (recs : List Record) :
    containerBytes (r :: recs) = lowByte (BitVec.ofNat 16 r.length) :: highByte (BitVec.ofNat 16 r.length) ::
      (r ++ containerBytes recs) := rfl

/-- The loop on one written block of legal length: it stops at a final record and goes on behind any other (decision D13). -/
theorem passThrough_writtenBlock (p : Params) {r : Record} (hmin : 18 ≤ r.length) (hmax : r.length ≤ 1009)
    (tail : List Byte) :
    passThrough p (lowByte (BitVec.ofNat 16 r.length) :: highByte (BitVec.ofNat 16 r.length) :: (r ++ tail)) =
      if isFinalRecord p.headerLayout r then .ok [restamp p.crcTable r]
      else (passThrough p tail).map (restamp p.crcTable r :: ·) := by
  have hsize : malformedSize r.length (r ++ tail).length = false := malformedSize_eq_false.2 ⟨hmin, hmax, by simp⟩
  rw [passThrough_block, blockSize_littleEndian (by omega), hsize, List.take_left, List.drop_left,
    isFinalRecord_restamp _ _ hmin]
  cases passThrough p tail <;> rfl

/-- Reading goes through any number of written blocks that are not final to whatever follows them. -/
theorem passThrough_containerBytes_append (p : Params) {recs : List Record}
    (h : ∀ r ∈ recs, 18 ≤ r.length ∧ r.length ≤ 1009 ∧ isFinalRecord p.headerLayout r = false) (tail : List Byte) :
    passThrough p (containerBytes recs ++ tail) = (passThrough p tail).map (recs.map (restamp p.crcTable) ++ ·) := by
  induction recs with
  | nil => exact (congrFun Except.map_id (passThrough p tail)).symm
  | cons r recs ih =>
    obtain ⟨⟨hmin, hmax, hfinal⟩, hrecs⟩ := List.forall_mem_cons.1 h
    rw [containerBytes_cons, List.cons_append, List.cons_append, List.append_assoc,
      passThrough_writtenBlock p hmin hmax, hfinal, ih hrecs]
    cases passThrough p tail <;> rfl

/-- Settles O47: nothing, or the block of a final record, follows the blocks (decisions D6, D11, D13). -/
theorem passThroughReadsItsContainer : Obligations.PassThroughReadsItsContainer := by
  intro p recs hrecs
  simp only [containerBytes_eq]
  refine ⟨?_, fun f tail hmin hmax hfinal => ?_⟩
  · have h := passThrough_containerBytes_append p hrecs []
    rw [List.append_nil] at h
    rw [h, passThrough_nil, Except.map, List.append_nil]
  · rw [List.append_assoc, List.append_assoc, passThrough_containerBytes_append p hrecs, ← lowByte_ofNat, ← highByte_ofNat]
    simp only [List.cons_append, List.nil_append]
    rw [passThrough_writtenBlock p hmin hmax, hfinal]
    rfl

/-! ### An escaped record is recovered (spec/30_encoding.md R50) -/

/-- The first byte of an escaped record is read off the stream: a first 0x10 has a second one behind it. -/
theorem escapeByte_append_inj {b b' : Byte} {x y : List Byte} (h : escapeByte b ++ x = escapeByte b' ++ y) :
    b = b' ∧ x = y := by
  unfold escapeByte dle at h
  split_ifs at h with hb hb' hb'
  · subst hb hb'; simpa using h
  · simp only [List.cons_append, List.cons.injEq] at h
    exact absurd (h.1 ▸ hb) hb'
  · simp only [List.cons_append, List.cons.injEq] at h
    exact absurd (h.1 ▸ hb') hb
  · simpa using h

/-- No escaped byte looks like the terminator (spec/30_encoding.md R49, R50). -/
theorem escapeByte_append_ne_term (b : Byte) (x y : List Byte) : escapeByte b ++ x ≠ [0x10, 0xE1] ++ y := by
  unfold escapeByte dle
  split_ifs with hb
  · subst hb; simp
  · exact fun h => hb (List.cons.inj h).1

/-- Settles O54: the two streams are read byte by byte, and both records end at the terminator. -/
theorem escapedRecordIsRecoverable : Obligations.EscapedRecordIsRecoverable := by
  intro r
  induction r with
  | nil =>
    intro r' x y h
    cases r' with
    | nil => simpa using h
    | cons b' bs' =>
      simp only [escapeRecord_nil, List.nil_append, escapeRecord_cons, List.append_assoc] at h
      exact absurd h.symm (escapeByte_append_ne_term _ _ _)
  | cons b bs ih =>
    intro r' x y h
    cases r' with
    | nil =>
      simp only [escapeRecord_nil, List.nil_append, escapeRecord_cons, List.append_assoc] at h
      exact absurd h (escapeByte_append_ne_term _ _ _)
    | cons b' bs' =>
      simp only [escapeRecord_cons, List.append_assoc] at h
      obtain ⟨rfl, hrest⟩ := escapeByte_append_inj h
      obtain ⟨rfl, hxy⟩ := ih bs' x y (by simpa only [List.append_assoc] using hrest)
      exact ⟨rfl, hxy⟩

end Sys2Proof.Machine
end

section
/-! The family of the command bytes: what each command does in `Idle`, what all of them leave unchanged, and that a run
cancelled by SEGREQ stays silent. -/

namespace Sys2Proof.Machine

/-! ### The exact effects (spec/40_commands.md) -/

/-- A byte outside 0x81 to 0x85 is no command code (spec/30_encoding.md R48). -/
theorem isCommand_of_outside {b : Byte} (h : b.toNat ≤ 0x80 ∨ 0x86 ≤ b.toNat) : isCommand b = false :=
  isCommand_eq_false_iff.2 (by refine ⟨?_, ?_, ?_, ?_, ?_⟩ <;> bv_omega)

/-- Settles O20: the commands' rows of the decode table, then each command's own law. -/
theorem commandBytesInIdle : Obligations.CommandBytesInIdle :=
  ⟨rfl, rfl, rfl, rfl, fun _ hb => congrArg Except.ok (decodeCommand_of_not_command (isCommand_of_outside hb)),
    fun _ hlive => ⟨execChan_live hlive, execGetstat_live hlive, execSetstat_live hlive, execCmd83_live hlive,
      execIgnore_live hlive⟩⟩

/-- Settles O21: the cancel writes the Pacer alone, the ack and the new state everything else (decision D16). -/
theorem segmentRequestCancelsThePacer : Obligations.SegmentRequestCancelsThePacer := by
  intro s hlive
  rw [exec, execSegreq_live hlive, State.cancelPacer_eq, State.cancelPacer_pz]
  rfl

/-! ### What a command leaves unchanged (spec/40_commands.md R54) -/

/-- A command writes the point of control and the stream, and the Pacer only where it cancels a run, which keeps its index. -/
theorem exec_command_writes {i : Instr} {s t : State}
    (hi : i = .chan ∨ i = .segreq ∨ i = .cmd83 ∨ i = .getstat ∨ i = .setstat ∨ ∃ b, i = .ignore b)
    (hx : exec i s = .next t) :
    ∃ p n pz l, t = { s with state := p, substep := n, pz := pz, tx := l } ∧
      pz.idx = s.pz.idx ∧ (i ≠ .segreq → pz = s.pz) := by
  rcases exec_next_cases hx with ⟨-, rfl⟩ | ⟨hlive, ht⟩
  · exact ⟨_, _, _, _, rfl, rfl, fun _ => rfl⟩
  rcases hi with rfl | rfl | rfl | rfl | rfl | ⟨b, rfl⟩
  · exact ⟨_, _, _, _, ht, rfl, fun _ => rfl⟩
  · rw [segmentRequestCancelsThePacer s hlive] at hx
    cases hx
    exact ⟨_, _, _, _, rfl, by split <;> rfl, fun hne => absurd rfl hne⟩
  all_goals exact ⟨_, _, _, _, ht, rfl, fun _ => rfl⟩

/-- Settles O55: every other field is as it was (the cancel: decision D16). -/
theorem commandFrame : Obligations.CommandFrame := by
  intro i s t hi hx
  obtain ⟨p, n, pz, l, rfl, hidx, hpz⟩ := exec_command_writes hi hx
  exact ⟨rfl, rfl, rfl, rfl, fun _ _ => rfl, hidx, hpz, rfl, rfl, rfl, rfl, rfl, rfl, rfl⟩

/-! ### Ticks of an inactive Pacer (spec/43_pacer.md R90, R93) -/

/-- A tick that meets an inactive Pacer is TICK_IDLE. -/
theorem State.decode_tick_inactive {s : State} (hquiet : s.pz.active = false) :
    decode (s.key .tick) = .ok .tickIdle := by
  simp [State.key, State.pacerPhase, hquiet, decode, decodeTick]

/-- Any number of ticks with no run active uses up the ticks and does nothing else. -/
theorem State.run_ticks_inactive {s : State} (hlive : s.fault = none) (hquiet : s.pz.active = false) (n : Nat) :
    State.run { s with inbox := List.replicate n .tick } n = .next { s with inbox := [] } := by
  induction n with
  | zero => rfl
  | succ n ih =>
    rw [← ih]
    exact State.run_of_decode (s := { s with inbox := List.replicate (n + 1) .tick }) hlive rfl
      (State.decode_tick_inactive hquiet) (execTickIdle_live hlive) n

/-- Settles O22: the cancel leaves no run active, and the ticks after it find none (decision D16). -/
theorem cancelledRunStaysSilent : Obligations.CancelledRunStaysSilent := by
  intro s t n hlive hx
  rw [exec, execSegreq_live hlive] at hx
  cases hx
  exact State.run_ticks_inactive (s := s.cancelPacer.ackAndEnter .segmentRequest)
    (s.cancelPacer_fault.trans hlive) s.cancelPacer_inactive n

end Sys2Proof.Machine
end

section
/-! The family of the argument states: what each argument and handshake byte does, the outcomes of the last segment id byte
by the pipeline's result, and what all of them leave unchanged. -/

namespace Sys2Proof.Machine

/-! ### The argument bytes but the last segment id byte (spec/41_argument_states.md R61 to R66) -/

/-- Settles O23: each byte into its place as it arrives (decision D20), by the instructions' own laws. -/
theorem idBytesAreStoredOnArrival : Obligations.IdBytesAreStoredOnArrival :=
  fun _ b hlive =>
    ⟨execChanA0_live hlive b, execChanA1_live hlive b, execSegreqId0_live hlive b, execSegreqId1_live hlive b⟩

/-- Settles O24: the two rows of the decode table, then the instructions' own laws, which do not name the byte. -/
theorem statusBytesAreDiscarded : Obligations.StatusBytesAreDiscarded :=
  ⟨fun _ => ⟨rfl, rfl⟩, fun _ b hlive => ⟨execSetstatD0_live hlive b, execSetstatD1_live hlive b⟩⟩

/-- Settles O25: any selector but 0x01 is GETSTAT_QOTHER's own; the status byte is the one of PROMPT_FOR_CHANNEL. -/
theorem statusQueryReplies : Obligations.StatusQueryReplies := by
  refine ⟨rfl, fun b hb => decode_encode (i := .getstatQother b) (bne_iff_ne.2 hb), fun s b hlive => ?_⟩
  have hq01 (c : Bool) (hprompt : s.params.promptForChannel = c) :
      exec .getstatQ01 s = .next ((s.emit (statusByte c :: termBytes)).enter .idle) :=
    hprompt ▸ execGetstatQ01_live hlive
  exact ⟨hq01 true, hq01 false, execGetstatQother_live hlive b⟩

/-- Settles O26: the row of the decode table, then the instruction's own law (decision D20). -/
theorem packetIndexByte : Obligations.PacketIndexByte :=
  ⟨fun _ => rfl, fun _ b hlive => execSegreqPkt_live hlive b⟩

/-- Such a byte writes the point of control, the stream and the pending registers, each register only by its own bytes. -/
theorem exec_argument_writes {i : Instr} {b : Byte} {s t : State}
    (hi : i = .chanA0 b ∨ i = .chanA1 b ∨ i = .setstatD0 b ∨ i = .setstatD1 b ∨ i = .getstatQ01 ∨ i = .getstatQother b ∨
      i = .segreqPkt b ∨ i = .segreqId0 b ∨ i = .segreqId1 b)
    (hx : exec i s = .next t) :
    ∃ p n l c k g, t = { s with state := p, substep := n, tx := l, chan := c, pkt := k, seg := g } ∧
      (i ≠ .chanA0 b → i ≠ .chanA1 b → c = s.chan) ∧ (i ≠ .segreqPkt b → k = s.pkt) ∧
      (i ≠ .segreqId0 b → i ≠ .segreqId1 b → g = s.seg) := by
  rcases exec_next_cases hx with ⟨-, rfl⟩ | ⟨-, ht⟩
  · exact ⟨_, _, _, _, _, _, rfl, fun _ _ => rfl, fun _ => rfl, fun _ _ => rfl⟩
  rcases hi with rfl | rfl | rfl | rfl | rfl | rfl | rfl | rfl | rfl <;>
    exact ⟨_, _, _, _, _, _, ht, by simp, by simp, by simp⟩

/-- Settles O56: every other field is as it was. -/
theorem argumentFrame : Obligations.ArgumentFrame := by
  intro i b s t hi hx
  obtain ⟨p, n, l, c, k, g, rfl, hchan, hpkt, hseg⟩ := exec_argument_writes hi hx
  exact ⟨hchan, hpkt, hseg, rfl, fun _ _ => rfl, rfl, rfl, rfl, rfl, rfl, rfl, rfl, rfl⟩

/-! ### The pipeline, case by case (spec/42_pipeline.md R71) -/

theorem State.cacheHit_eq_false_iff (s : State) (id : SegId) :
    s.cacheHit id = false ↔ ¬ (s.cache.id = some id ∧ s.cache.recs ≠ []) := by
  rw [← s.cacheHit_iff, Bool.not_eq_true]

section
variable {s : State} {id : SegId}

theorem pipeline_clock (hclock : id = clockId) :
    pipeline id s = (.ok, s.afterClock.replaceCache clockId (clockRecords s.params s.clockAnswer)) := if_pos hclock

theorem pipeline_hit (hclock : id ≠ clockId) (hhit : s.cacheHit id = true) : pipeline id s = (.ok, s) := by
  rw [pipeline, if_neg hclock, if_pos hhit]

theorem pipeline_records {recs : List Record} (hclock : id ≠ clockId) (hmiss : s.cacheHit id = false)
    (hok : encodeAnswer s.params id (s.backendAnswer id) = .ok recs) :
    pipeline id s = (.ok, (s.afterQuery id).replaceCache id recs) := by
  rw [pipeline, if_neg hclock, if_neg (Bool.not_eq_true _ ▸ hmiss), hok]

theorem pipeline_failure {kind : FailKind} (hclock : id ≠ clockId) (hmiss : s.cacheHit id = false)
    (hfail : encodeAnswer s.params id (s.backendAnswer id) = .error kind) :
    pipeline id s = (.fail kind, (s.afterQuery id).invalidate) := by
  rw [pipeline, if_neg hclock, if_neg (Bool.not_eq_true _ ▸ hmiss), hfail]

end

/-! ### The last segment id byte, by the pipeline's result (spec/41_argument_states.md R67) -/

section
variable {s : State} {b : Byte}

/-- The whole meaning, once it is known what the pipeline answers after the id is stored and DONE sent. -/
theorem exec_segreqId2_of_pipeline {result : PipelineResult} {t : State} (hlive : s.fault = none)
    (hpipe : pipeline (s.requestedId b) ((s.setSeg (s.requestedId b)).emit [doneByte]) = (result, t)) :
    exec (.segreqId2 b) s = .next (t.segmentReply result) :=
  (execSegreqId2_live hlive b).trans (congrArg (fun r => Host.Outcome.next (r.2.segmentReply r.1)) hpipe)

/-- A cache miss whose answer gives records, by either path: DONE and SEG_OK, the cache replaced, one query (R73). -/
theorem exec_segreqId2_of_records {recs : List Record} (hlive : s.fault = none) (hclock : s.requestedId b ≠ 0x7FFFFF)
    (hmiss : ¬ (s.cache.id = some (s.requestedId b) ∧ s.cache.recs ≠ []))
    (hok : encodeAnswer s.params (s.requestedId b) (s.backendAnswer (s.requestedId b)) = .ok recs) :
    exec (.segreqId2 b) s = .next { s with
      seg := s.requestedId b
      tx := s.tx ++ [0xE4, 0x91]
      state := .sendSegment
      substep := 0
      cache := { id := some (s.requestedId b), recs := recs }
      queries := s.queries ++ [s.requestedId b]
      backendAnswers := s.backendAnswers.tail } := by
  rw [← s.cacheHit_eq_false_iff] at hmiss
  rw [exec_segreqId2_of_pipeline hlive (pipeline_records hclock hmiss hok), List.append_cons s.tx]
  rfl

end

/-- Settles O29: the clock test comes first (decision D21). -/
theorem clockSegmentRequest : Obligations.ClockSegmentRequest := by
  intro s b hlive hid
  rw [exec_segreqId2_of_pipeline hlive (pipeline_clock hid), hid, List.append_cons s.tx]
  rfl

/-- Settles O30: on a hit the pipeline gives back the state it was given. -/
theorem cacheHitRequest : Obligations.CacheHitRequest := by
  intro s b hlive hclock hid hrecs
  have hhit : s.cacheHit (s.requestedId b) = true := (s.cacheHit_iff _).2 ⟨hid, hrecs⟩
  rw [exec_segreqId2_of_pipeline hlive (pipeline_hit hclock hhit), List.append_cons s.tx]
  rfl

/-- Settles O31: within the limit (decision D9) a `Raw` answer gives the raw records. -/
theorem rawSegmentRequest : Obligations.RawSegmentRequest :=
  fun _ _ _ hlive hclock hmiss ha hlen =>
    exec_segreqId2_of_records hlive hclock hmiss (by rw [ha, encodeAnswer_raw _ _ hlen])

/-- Settles O32: within the limit (decision D9) a `Container` answer gives what its blocks parse to. -/
theorem containerSegmentRequest : Obligations.ContainerSegmentRequest :=
  fun _ _ _ _ hlive hclock hmiss ha hlen hparse =>
    exec_segreqId2_of_records hlive hclock hmiss (by rw [ha, encodeAnswer_container _ _ hlen, hparse])

/-- Each of the five failing answers gives a failure kind: the backend's own refusals, the size limit (decision D9), and a
container that does not parse (spec/60_exceptions.md R102). -/
theorem exists_encodeAnswer_error {p : Params} {a : BackendResult} (id : SegId)
    (h : a = .notFound ∨ a = .tooLarge ∨ a = .ioError ∨ (∃ kind bytes, a = .ok kind bytes ∧ 65536 < bytes.length) ∨
      ∃ bytes kind, a = .ok .container bytes ∧ passThrough p bytes = .error kind) :
    ∃ kind, encodeAnswer p id a = .error kind := by
  rcases h with rfl | rfl | rfl | ⟨kind, bytes, rfl, hlong⟩ | ⟨bytes, kind, rfl, hparse⟩
  · exact ⟨_, rfl⟩
  · exact ⟨_, rfl⟩
  · exact ⟨_, rfl⟩
  · exact ⟨_, encodeAnswer_tooLong p id kind hlong⟩
  · rcases Nat.lt_or_ge 65536 bytes.length with hlong | hlen
    · exact ⟨_, encodeAnswer_tooLong p id .container hlong⟩
    · exact ⟨kind, (encodeAnswer_container p id hlen).trans hparse⟩

/-- Settles O33: the reply and the emptied cache (decision D10) do not depend on the failure's kind. -/
theorem failedSegmentRequest : Obligations.FailedSegmentRequest := by
  intro s b hlive hclock hmiss hanswer
  obtain ⟨kind, hfail⟩ := exists_encodeAnswer_error (s.requestedId b) hanswer
  rw [← s.cacheHit_eq_false_iff] at hmiss
  rw [exec_segreqId2_of_pipeline hlive (pipeline_failure hclock hmiss hfail), List.append_cons s.tx]
  rfl

/-! ### What the last segment id byte leaves unchanged -/

/-- Every outcome of a segment request leaves the requested id in `seg`. -/
theorem State.requestSegment_seg (s : State) (b : Byte) : (s.requestSegment b).seg = s.requestedId b := by
  rcases requestSegment_cases s b with ⟨hid, e⟩ | ⟨-, -, e⟩ | ⟨-, -, _, -, e⟩ | ⟨-, -, _, -, e⟩ <;> rw [e]
  · exact hid.symm
  all_goals rfl

/-- An oracle whose count did not grow was not asked, so its lined-up answers are as they were (spec/42_pipeline.md R71). -/
theorem State.requestSegment_unasked (s : State) (b : Byte) :
    ((s.requestSegment b).clockReads = s.clockReads → (s.requestSegment b).clockAnswers = s.clockAnswers) ∧
      ((s.requestSegment b).queries = s.queries → (s.requestSegment b).backendAnswers = s.backendAnswers) := by
  rcases requestSegment_cases s b with ⟨-, e⟩ | ⟨-, -, e⟩ | ⟨-, -, _, -, e⟩ | ⟨-, -, _, -, e⟩ <;> simp [e]

/-- Settles O57: field by field; on a hit O30 gives the whole state. -/
theorem lastSegmentByteFrame : Obligations.LastSegmentByteFrame := by
  intro b s t hx
  rcases exec_next_cases hx with ⟨-, rfl⟩ | ⟨hlive, ht⟩
  · exact ⟨rfl, rfl, rfl, rfl, rfl, rfl, rfl, fun _ _ _ => ⟨rfl, fun _ _ => rfl⟩, fun _ => rfl, fun _ => rfl⟩
  obtain ⟨hparams, hinbox, -⟩ := exec_frame_environment hx
  have hhit (hid : s.cache.id = some (s.requestedId b)) (hrecs : s.cache.recs ≠ []) (hclock : s.requestedId b ≠ 0x7FFFFF) :
      t.cache = s.cache ∧ s.sameRecordBytes t := by
    rw [cacheHitRequest s b hlive hclock hid hrecs] at hx
    cases hx
    exact ⟨rfl, fun _ _ => rfl⟩
  obtain rfl : t = s.requestSegment b := ht
  have hlow : (s.requestSegment b).seg.extractLsb' 0 16 = s.seg.extractLsb' 0 16 := by
    rw [s.requestSegment_seg]
    exact BitVec.extractLsb'_append_eq_right
  obtain ⟨hchan, hpkt, hpz, hfault⟩ := s.requestSegment_frame b
  obtain ⟨hclocks, hqueries⟩ := s.requestSegment_unasked b
  exact ⟨hchan, hpkt, hlow, hpz, hfault, hparams, hinbox, hhit, hclocks, hqueries⟩

/-! ### The handshake bytes (spec/41_argument_states.md R69, R70; spec/60_exceptions.md R98, R99) -/

/-- Settles O49: the instructions' own laws; the byte that aborts is not named by them (decision D17). -/
theorem handshakeBytes : Obligations.HandshakeBytes :=
  fun _ b hlive => ⟨execHs1_live hlive, execHs1Abort_live hlive b, execHs2_live hlive, execHs2Abort_live hlive b⟩

/-- Settles O50: HS2's own law where no record has the index (decision D12). -/
theorem packetIndexOutOfRangeFault : Obligations.PacketIndexOutOfRangeFault :=
  fun _ hlive hk => execHs2_outOfRange hlive hk

/-- A handshake byte writes the point of control, and the Pacer or the fault only where it is HS2. -/
theorem exec_handshake_writes {i : Instr} {b : Byte} {s t : State}
    (hi : i = .hs1 ∨ i = .hs1Abort b ∨ i = .hs2 ∨ i = .hs2Abort b) (hx : exec i s = .next t) :
    ∃ p n pz f, t = { s with state := p, substep := n, pz := pz, fault := f } ∧
      (i ≠ .hs2 → pz = s.pz ∧ f = s.fault) := by
  rcases exec_next_cases hx with ⟨-, rfl⟩ | ⟨-, ht⟩
  · exact ⟨_, _, _, _, rfl, fun _ => ⟨rfl, rfl⟩⟩
  rcases hi with rfl | rfl | rfl | rfl
  pick_goal 3
  · rcases ht with ⟨-, ht⟩ | ⟨-, ht⟩ <;> exact ⟨_, _, _, _, ht, fun hne => absurd rfl hne⟩
  all_goals exact ⟨_, _, _, _, ht, fun _ => ⟨rfl, rfl⟩⟩

/-- Settles O58: every other field is as it was. -/
theorem handshakeFrame : Obligations.HandshakeFrame := by
  intro i b s t hi hx
  obtain ⟨p, n, pz, f, rfl, hpz⟩ := exec_handshake_writes hi hx
  exact ⟨rfl, rfl, rfl, rfl, fun _ _ => rfl, rfl, hpz, rfl, rfl, rfl, rfl, rfl, rfl⟩

end Sys2Proof.Machine
end

section
/-! The family of the pipeline: the oracle a step asks, the second request for a segment, the failure kinds, the raw records and
their payloads, the clock record, the CRC, and the container with a malformed block. -/

namespace Sys2Proof.Machine

/-! ### The oracles (spec/42_pipeline.md R71, R72) -/

/-- A segment request asks no oracle, the backend for the requested id, or the clock for the clock segment. -/
theorem State.requestSegment_oracles (s : State) (b : Byte) :
    ((s.requestSegment b).queries = s.queries ∧ (s.requestSegment b).clockReads = s.clockReads) ∨
    (s.requestedId b ≠ clockId ∧ (s.requestSegment b).queries = s.queries ++ [s.requestedId b] ∧
      (s.requestSegment b).clockReads = s.clockReads) ∨
    (s.requestedId b = clockId ∧ (s.requestSegment b).queries = s.queries ∧
      (s.requestSegment b).clockReads = s.clockReads + 1) := by
  rcases requestSegment_cases s b with ⟨hid, e⟩ | ⟨-, -, e⟩ | ⟨hid, -, _, -, e⟩ | ⟨hid, -, _, -, e⟩ <;> rw [e]
  · exact .inr (.inr ⟨hid, rfl, rfl⟩)
  · exact .inl ⟨rfl, rfl⟩
  · exact .inr (.inl ⟨hid, rfl, rfl⟩)
  · exact .inr (.inl ⟨hid, rfl, rfl⟩)

/-- Settles O17: the last segment id byte by its four outcomes, and no other instruction touches what the oracles record. -/
theorem atMostOneOracleQueryPerStep : Obligations.AtMostOneOracleQueryPerStep := by
  intro i s t hx
  rcases exec_next_cases hx with ⟨-, rfl⟩ | ⟨-, ht⟩
  · exact .inl ⟨rfl, rfl⟩
  cases i with
  | segreqId2 b =>
    obtain rfl : t = s.requestSegment b := ht
    rw [s.requestSegment_seg]
    rcases s.requestSegment_oracles b with hnone | hbackend | hclock
    · exact .inl hnone
    · exact .inr (.inl ⟨⟨b, rfl⟩, hbackend⟩)
    · exact .inr (.inr ⟨⟨b, rfl⟩, hclock⟩)
  | hs2 => rcases ht with ⟨-, rfl⟩ | ⟨-, rfl⟩ <;> exact .inl ⟨rfl, rfl⟩
  | tickData => obtain ⟨b, -, rfl⟩ := ht; exact .inl ⟨rfl, rfl⟩
  | segreq => simp only at ht; subst ht; simp [State.ackAndEnter]
  | _ => simp only at ht; subst ht; exact .inl ⟨rfl, rfl⟩

/-- A request answered SEG_OK leaves the cache to the requested id, by each of the three ways to succeed. -/
theorem State.requestSegment_cache_id {s : State} {b : Byte} (h : (s.requestSegment b).state = .sendSegment) :
    (s.requestSegment b).cache.id = some (s.requestedId b) := by
  rcases requestSegment_cases s b with ⟨hid, e⟩ | ⟨-, hhit, e⟩ | ⟨-, -, _, -, e⟩ | ⟨-, -, _, -, e⟩ <;> rw [e] at h ⊢
  · exact congrArg some hid.symm
  · exact ((s.cacheHit_iff _).1 hhit).1
  · rfl
  · cases h

/-- Settles O34: the first request leaves the id in the cache, so the second one is the hit of O30 (decision D21). -/
theorem secondRequestIsACacheHit : Obligations.SecondRequestIsACacheHit := by
  intro s t u v b c hlive hx hstate hrecs hclock hulive hucache huid hux
  rw [exec, execSegreqId2_live hlive] at hx
  cases hx
  have hid : (s.requestSegment b).cache.id = some (s.requestSegment b).seg :=
    (State.requestSegment_cache_id hstate).trans (congrArg some (s.requestSegment_seg b).symm)
  rw [← huid] at hid hclock
  rw [← hucache] at hid hrecs
  rw [cacheHitRequest u c hulive hclock hid hrecs] at hux
  cases hux
  exact ⟨rfl, hucache, rfl⟩

/-! ### The failure kinds (spec/60_exceptions.md R95, R102) -/

/-- The loop over a container's blocks fails in one way only (spec/42_pipeline.md R83). -/
theorem passThroughFrom_error {p : Params} : ∀ {fuel : Nat} {bytes : List Byte} {kind : FailKind},
    passThroughFrom p fuel bytes = .error kind → kind = .malformedRecord := by
  intro fuel
  induction fuel with
  | zero => intro bytes kind h; cases h
  | succ n ih =>
    intro bytes kind h
    match bytes, h with
    | [], h => cases h
    | [_], h => cases h; rfl
    | lo :: hi :: rest, h =>
      rw [passThroughFrom_block] at h
      split at h
      · cases h; rfl
      split at h
      · cases h
      split at h
      · cases h
      · rename_i htail
        cases h
        exact ih htail

/-- Settles O36: the size limit (decision D9) comes before the container's checks (decision D31). -/
theorem failureKindOfAnAnswer : Obligations.FailureKindOfAnAnswer :=
  ⟨fun p id => ⟨rfl, rfl, rfl, fun kind _ hlong => encodeAnswer_tooLong p id kind hlong,
      fun _ hlen => encodeAnswer_raw p id hlen, fun _ hlen => encodeAnswer_container p id hlen⟩,
    fun _ _ _ h => passThroughFrom_error h, rfl, rfl, rfl, rfl⟩

/-! ### Raw records (spec/42_pipeline.md R79, R80, R81) -/

/-- The header in the order `nabu`, each field split into its bytes (decision D6). -/
theorem headerBytes_nabu (id : SegId) (k o : Nat) (t : Byte) :
    headerBytes .nabu id k o t =
      [id.extractLsb' 16 8, id.extractLsb' 8 8, id.extractLsb' 0 8, BitVec.ofNat 8 k, 0x01, 0x7F, 0xFF, 0xFF, 0xFF,
        0x7F, 0x80, t, BitVec.ofNat 8 k, BitVec.ofNat 8 (k / 256), BitVec.ofNat 8 (o / 256), BitVec.ofNat 8 o] := by
  rw [← lowByte_ofNat k, ← highByte_ofNat k, ← lowByte_ofNat o, ← highByte_ofNat o]
  rfl

/-- A chunk is the last one exactly when no byte follows it. -/
theorem succ_eq_chunkCount_iff {k n : Nat} (hk : k < chunkCount n) : k + 1 = chunkCount n ↔ n ≤ 991 * (k + 1) := by
  rw [← Nat.not_lt, ← lt_chunkCount_iff, Nat.not_lt]
  exact ⟨fun h => h.ge, fun h => Nat.le_antisymm hk h⟩

/-- Record `k` exists exactly when its chunk starts inside the segment, and then is made of it. -/
theorem rawRecords_getElem?_eq (p : Params) (id : SegId) (bytes : List Byte) (k : Nat) :
    (rawRecords p id bytes)[k]? =
      if 991 * k < bytes.length then
        some (rawRecord p id k (991 * k) (chunk bytes k) (decide (bytes.length ≤ 991 * (k + 1))))
      else none := by
  split
  · rename_i hlt
    have hk : k < chunkCount bytes.length := lt_chunkCount_iff.2 hlt
    have hfinal : (k + 1 == chunkCount bytes.length) = decide (bytes.length ≤ 991 * (k + 1)) :=
      decide_eq_decide.2 (succ_eq_chunkCount_iff hk)
    have hget := List.getElem?_eq_getElem (l := rawRecords p id bytes) (by simpa using hk)
    obtain ⟨-, e⟩ := rawRecords_getElem? hget
    rw [hget, e, hfinal]
  · rename_i hge
    exact List.getElem?_eq_none (by rwa [rawRecords_length, ← Nat.not_lt, lt_chunkCount_iff])

/-- Settles O37: the header's bytes, then the records by their positions (decisions D6, D11). -/
theorem rawRecordContents : Obligations.RawRecordContents := by
  refine ⟨fun p id k o c final hlayout => ?_, rawRecords_getElem?_eq⟩
  rw [rawRecord, hlayout, headerBytes_nabu]
  rfl

/-- Settles O39: the count is bounded by where a chunk starts, the length by the chunk's (decision D11). -/
theorem rawRecordCountAndLengths : Obligations.RawRecordCountAndLengths := by
  intro p id bytes
  rw [rawRecords_length]
  refine ⟨?_, fun n hn => ?_, fun k r hr => ?_⟩
  · exact Nat.not_lt.1 fun h => Nat.lt_irrefl _ (lt_chunkCount_iff.2 h)
  · exact Nat.not_lt.1 fun h => Nat.not_lt.2 hn (lt_chunkCount_iff.1 h)
  · obtain ⟨hk, rfl⟩ := rawRecords_getElem? hr
    rw [lt_chunkCount_iff] at hk
    rw [rawRecord_length, chunk_length]
    omega

/-- What a raw record holds between its header and its CRC is its chunk. -/
theorem rawRecord_payload (p : Params) (id : SegId) (k o : Nat) (c : List Byte) (final : Bool) :
    ((rawRecord p id k o c final).drop 16).take ((rawRecord p id k o c final).length - 18) = c := by
  rw [rawRecord_length, Nat.add_sub_cancel, rawRecord, withCrc, List.append_assoc,
    List.drop_left' (headerBytes_length _ _ _ _ _), List.take_left]

/-- The first `n` chunks are the first `991 n` bytes (spec/42_pipeline.md R79). -/
theorem flatMap_chunk_range (bytes : List Byte) (n : Nat) :
    (List.range n).flatMap (chunk bytes) = bytes.take (991 * n) := by
  induction n with
  | zero => rfl
  | succ n ih => rw [List.range_succ, List.flatMap_append, List.flatMap_singleton, ih, Nat.mul_succ, List.take_add, chunk]

/-- Settles O40: each record's payload is its chunk, and the chunks are enough to reach the segment's end. -/
theorem rawPayloadsAreTheSegment : Obligations.RawPayloadsAreTheSegment := by
  intro p id bytes
  obtain ⟨henough, -, -⟩ := rawRecordCountAndLengths p id bytes
  rw [rawRecords_length] at henough
  simp only [rawRecords, List.flatMap_map, rawRecord_payload]
  rw [flatMap_chunk_range, List.take_of_length_le henough]

/-! ### The clock record (spec/42_pipeline.md R85) -/

/-- A segment that one chunk holds is one record, the first and the final one. -/
theorem rawRecords_of_one_chunk (p : Params) (id : SegId) {bytes : List Byte} (hpos : 0 < bytes.length)
    (hlen : bytes.length ≤ 991) : rawRecords p id bytes = [rawRecord p id 0 0 bytes true] := by
  have hcount : chunkCount bytes.length = 1 := by simp only [chunkCount, maxPayload]; omega
  have hchunk : chunk bytes 0 = bytes := List.take_of_length_le hlen
  simp [rawRecords, hcount, hchunk]

/-- Settles O42: the nine payload bytes are one chunk (decisions D6, D14). -/
theorem clockSegmentIsOneRecord : Obligations.ClockSegmentIsOneRecord := by
  intro p t hlayout
  have hweekday : t.weekday + 1 = BitVec.ofNat 8 (t.weekday.toNat + 1) := by simp [BitVec.ofNat_add]
  obtain ⟨hrecord, -⟩ := rawRecordContents
  rw [clockRecords, rawRecords_of_one_chunk p clockId (bytes := clockPayload t) (Nat.zero_lt_succ _) (by simp [clockPayload]),
    hrecord p clockId 0 0 (clockPayload t) true hlayout, clockPayload, hweekday]
  rfl

/-! ### The CRC (spec/42_pipeline.md R84, R86, R87, R88) -/

theorem crc16_nil (table : CrcTable) : crc16 table [] = 0 := by simp [crc16]

/-- The running value, the complement of the CRC, goes through one step per byte. -/
theorem not_crc16_append_singleton (table : CrcTable) (m : List Byte) (b : Byte) :
    ~~~ crc16 table (m ++ [b]) = crcStep table (~~~ crc16 table m) b := by
  simp [crc16]

/-- The rule's `(crc >> 8) & 0xFF` is the high byte. -/
theorem setWidth_shiftRight_eq_highByte (v : Word16) : (v >>> 8).setWidth 8 = highByte v := by
  apply BitVec.eq_of_toNat_eq
  simp [highByte]

/-- Settles O43: the fold's step, with its index as the high byte XOR the new byte. -/
theorem crcStepByStep : Obligations.CrcStepByStep := by
  refine fun table => ⟨crc16_nil table, fun m b => ?_⟩
  rw [not_crc16_append_singleton]
  simp only [crcStep, setWidth_shiftRight_eq_highByte]
  rfl

/-- Each entry of the default table is computed as the rule says (spec/42_pipeline.md R86). -/
theorem defaultCrcTable_getElem {i : Nat} (hi : i < 256) : defaultCrcTable[i] = crcTableEntry (BitVec.ofNat 8 i) := by
  simp [defaultCrcTable]

/-- Settles O44: the table's entries as the rule computes them (decision D7), and the CRC run over them. -/
theorem defaultCrcValues : Obligations.DefaultCrcValues := by
  refine ⟨?_, ?_, ?_, ?_, by decide +kernel⟩ <;> rw [defaultCrcTable_getElem] <;> decide

/-- Settles O45: the CRC rule of each path's records. -/
theorem everyEncodedRecordHoldsItsCrc : Obligations.EveryEncodedRecordHoldsItsCrc := by
  intro p id r hr
  have hcrc : crcHolds p.crcTable r := by
    rcases hr with ⟨bytes, hr⟩ | ⟨t, hr⟩ | ⟨bytes, recs, hparse, hr⟩
    · exact crcHolds_rawRecords hr
    · exact crcHolds_rawRecords hr
    · exact crcHolds_passThrough hparse hr
  exact hcrc

/-- Settles O46: re-stamping is the CRC over the other bytes; a record whose CRC holds is already of that form. -/
theorem restampChangesOnlyTheCrc : Obligations.RestampChangesOnlyTheCrc := by
  refine fun table r hlen => ⟨restamp_eq_withCrc table hlen, fun hcrc => ?_⟩
  rw [crcHolds] at hcrc
  rw [restamp_eq_withCrc table hlen, withCrc, ← hcrc, List.take_append_drop]

/-! ### A malformed block (spec/42_pipeline.md R83) -/

/-- A failure behind good blocks that are not final is the container's failure. -/
theorem passThrough_containerBytes_append_error {p : Params} {recs : List Record} {tail : List Byte} {kind : FailKind}
    (h : ∀ r ∈ recs, 18 ≤ r.length ∧ r.length ≤ 1009 ∧ isFinalRecord p.headerLayout r = false)
    (htail : passThrough p tail = .error kind) : passThrough p (containerBytes recs ++ tail) = .error kind := by
  rw [passThrough_containerBytes_append p h, htail, Except.map]

/-- A block size out of bounds or past the end fails at its own block (decision D13). -/
theorem passThrough_malformedSize (p : Params) {lo hi : Byte} {rest : List Byte}
    (h : malformedSize (blockSize lo hi) rest.length = true) :
    passThrough p (lo :: hi :: rest) = .error .malformedRecord := by
  rw [passThrough_block, if_pos h]

/-- Settles O48: the two ways a block can be malformed, each behind the good blocks (decision D13). -/
theorem passThroughFailsOnAMalformedBlock : Obligations.PassThroughFailsOnAMalformedBlock := by
  intro p recs hrecs
  simp only [containerBytes_eq]
  refine ⟨fun x => passThrough_containerBytes_append_error hrecs rfl, fun lo hi rest hsize => ?_⟩
  refine passThrough_containerBytes_append_error hrecs (passThrough_malformedSize p ?_)
  rw [← Bool.not_eq_false, malformedSize_eq_false, blockSize]
  omega

end Sys2Proof.Machine
end

section
/-! The family of the Pacer: the condition a tick is decoded under, the three ticks and what they leave unchanged, a whole run
of the Pacer, and what starts and stops it. -/

namespace Sys2Proof.Machine

/-! ### The Pacer's condition (spec/43_pacer.md R90, R91, R92) -/

theorem State.pacerPhase_of_inactive {s : State} (ha : s.pz.active = false) : s.pacerPhase = .idle := by
  simp [State.pacerPhase, ha]

/-- An active Pacer whose record does not exist, which no state of the invariant has (spec/43_pacer.md R91). -/
theorem State.pacerPhase_of_noRecord {s : State} (ha : s.pz.active = true)
    (hr : s.cache.recs[s.pz.idx.toNat]? = none) : s.pacerPhase = .noRecord := by
  simp [State.pacerPhase, ha, hr]

/-- Settles O6: an inactive Pacer, an active one without its record, and an active one by the position of its cursor. -/
theorem pacerConditionOfATick : Obligations.PacerConditionOfATick := by
  refine ⟨fun s => ?_, fun s => ?_, fun s => ?_⟩ <;> cases ha : s.pz.active with
  | false => simp [State.pacerPhase_of_inactive ha]
  | true =>
    cases hr : s.cache.recs[s.pz.idx.toNat]? with
    | none => simp [State.pacerPhase_of_noRecord ha hr]
    | some r =>
      rw [State.pacerPhase_of_record ha hr]
      split_ifs <;> simp <;> omega

/-! ### The three ticks (spec/43_pacer.md R90, R91, R92; decision D15) -/

theorem escapeByte_eq (b : Byte) : escapeByte b = if b = 0x10 then [0x10, 0x10] else [b] := by
  unfold escapeByte dle
  split_ifs with hb
  · rw [hb]
  · rfl

section
variable {s : State} {r : Record} (ha : s.pz.active = true) (hr : s.cache.recs[s.pz.idx.toNat]? = some r)
include ha hr

/-- A tick that meets a run with a byte left at its cursor is TICK_DATA. -/
theorem State.decode_tick_sending (hlt : s.pz.cursor.toNat < r.length) : decode (s.key .tick) = .ok .tickData := by
  rw [State.key, State.pacerPhase_of_record ha hr, if_pos hlt]
  rfl

/-- A tick that meets a run at its record's end is TICK_END. -/
theorem State.decode_tick_ended (hend : s.pz.cursor.toNat = r.length) : decode (s.key .tick) = .ok .tickEnd := by
  rw [State.key, State.pacerPhase_of_record ha hr, if_neg hend.not_lt, if_pos hend]
  rfl

end

/-- Settles O51: each tick's row of the decode table, and the instructions' own laws (cadence: decision D15). -/
theorem ticksOfThePacer : Obligations.TicksOfThePacer := by
  intro s hlive
  refine ⟨State.decode_tick_inactive, execTickIdle_live hlive, fun r b hr hb => ⟨fun ha => ?_, ?_⟩,
    fun r hr hend ha => State.decode_tick_ended ha hr hend, execTickEnd_live hlive⟩
  · exact State.decode_tick_sending ha hr (List.getElem?_eq_some_iff.1 hb).1
  · rw [← escapeByte_eq]
    exact execTickData_live hlive ((Memory.readByte_of_record hr _).trans hb)

/-! ### What the ticks leave unchanged (spec/43_pacer.md R92, spec/10_state.md R28) -/

/-- A tick writes the stream and the Pacer, but never its index, and each of the other two registers in one tick only. -/
theorem exec_tick_writes {i : Instr} {s t : State} (hi : i = .tickIdle ∨ i = .tickData ∨ i = .tickEnd)
    (hx : exec i s = .next t) :
    ∃ pz l, t = { s with pz := pz, tx := l } ∧ pz.idx = s.pz.idx ∧
      (i ≠ .tickEnd → pz.active = s.pz.active) ∧ (i ≠ .tickData → pz.cursor = s.pz.cursor) := by
  rcases exec_next_cases hx with ⟨-, rfl⟩ | ⟨-, ht⟩
  · exact ⟨_, _, rfl, rfl, fun _ => rfl, fun _ => rfl⟩
  rcases hi with rfl | rfl | rfl
  · exact ⟨_, _, ht, rfl, fun _ => rfl, fun _ => rfl⟩
  · obtain ⟨b, -, ht⟩ := ht
    exact ⟨_, _, ht, rfl, fun _ => rfl, fun hne => absurd rfl hne⟩
  · exact ⟨_, _, ht, rfl, fun hne => absurd rfl hne, fun _ => rfl⟩

/-- Settles O59: every other field is as it was. -/
theorem tickFrame : Obligations.TickFrame := by
  intro i s t hi hx
  obtain ⟨pz, l, rfl, hidx, hactive, hcursor⟩ := exec_tick_writes hi hx
  exact ⟨rfl, rfl, rfl, rfl, rfl, rfl, fun _ _ => rfl, hidx, hactive, hcursor, rfl, rfl, rfl, rfl, rfl, rfl, rfl⟩

/-! ### What starts and stops a run (spec/43_pacer.md R93; decision D16) -/

/-- Settles O16: of the five instructions that may write the Pacer, HS2 never stops a run, TICK_DATA keeps `active`,
and the other three never start one. -/
theorem whatStartsAndStopsThePacer : Obligations.WhatStartsAndStopsThePacer := by
  intro i s t hx
  obtain ⟨-, -, -, -, hpz, -⟩ := whichInstructionWritesWhichRegister i s t hx
  have hkeep (h : t.pz.active = s.pz.active) : (s.pz.active = false → t.pz.active = true → i = .hs2) ∧
      (s.pz.active = true → t.pz.active = false → i = .segreq ∨ i = .tickEnd ∨ i = .reset) := by
    rw [h]; cases s.pz.active <;> simp
  rcases exec_next_cases hx with ⟨-, rfl⟩ | ⟨-, ht⟩
  · exact hkeep rfl
  rcases hpz with hpz | rfl | rfl | rfl | rfl | rfl
  · exact hkeep (congrArg Pacer.active hpz)
  · obtain rfl : t = s.cancelPacer.ackAndEnter .segmentRequest := ht
    exact ⟨fun _ hon => absurd (s.cancelPacer_inactive.symm.trans hon) Bool.false_ne_true, fun _ _ => .inl rfl⟩
  · rcases ht with ⟨-, rfl⟩ | ⟨-, rfl⟩
    · exact ⟨fun _ _ => rfl, fun _ => nofun⟩
    · exact hkeep rfl
  · obtain ⟨b, -, rfl⟩ := ht
    exact hkeep rfl
  · obtain rfl : t = (s.emit termBytes).stopPacer := ht
    exact ⟨fun _ => nofun, fun _ _ => .inr (.inl rfl)⟩
  · obtain rfl : t = s.resetRegisters := ht
    exact ⟨fun _ => nofun, fun _ _ => .inr (.inr rfl)⟩

/-! ### A whole run (spec/43_pacer.md R94, spec/30_encoding.md R50; decision D15) -/

theorem escapeRecord_eq (r : Record) :
    escapeRecord r = r.flatMap fun b => if b = 0x10 then [0x10, 0x10] else [b] := by
  rw [escapeRecord, funext escapeByte_eq]

/-- Each byte 0x10 adds one to the escaped record's length. -/
theorem escapeRecord_length (r : Record) : (escapeRecord r).length = r.length + r.count 0x10 := by
  induction r with
  | nil => rfl
  | cons b bs ih =>
    rw [escapeRecord_cons, escapeByte_eq, List.length_append, ih, List.count_cons, List.length_cons]
    simp only [beq_iff_eq]
    split_ifs <;> simp only [List.length_cons, List.length_nil] <;> omega

/-- A run with the bytes `sent` behind its cursor and the bytes `left` before it sends these, escaped, one per tick, and then the
terminator. -/
theorem State.run_pacer {left : List Byte} : ∀ {s : State} {sent : List Byte} {rest : List Event},
    s.fault = none → s.pz.active = true → s.cache.recs[s.pz.idx.toNat]? = some (sent ++ left) →
    s.pz.cursor = BitVec.ofNat 11 sent.length → (sent ++ left).length < 2048 →
    s.inbox = List.replicate (left.length + 1) .tick ++ rest →
    s.run (left.length + 1) = .next { s with
      tx := s.tx ++ escapeRecord left ++ termBytes
      pz := { active := false, idx := s.pz.idx, cursor := BitVec.ofNat 11 (sent ++ left).length }
      inbox := rest } := by
  induction left with
  | nil =>
    intro s sent rest hlive ha hr hcur hlen hinbox
    rw [List.append_nil] at hr hlen
    have hend : s.pz.cursor.toNat = sent.length := by rw [hcur, BitVec.toNat_ofNat, Nat.mod_eq_of_lt hlen]
    rw [List.length_nil, State.run_of_decode hlive hinbox (State.decode_tick_ended ha hr hend) (execTickEnd_live hlive),
      State.run_zero]
    simp [State.emit, State.stopPacer, State.popEvent, hcur, hinbox]
  | cons b bs ih =>
    intro s sent rest hlive ha hr hcur hlen hinbox
    have hpos : s.pz.cursor.toNat = sent.length := by
      rw [hcur, BitVec.toNat_ofNat, Nat.mod_eq_of_lt (by simp at hlen; omega)]
    have hb : s.cache.recs.readByte s.pz.idx.toNat s.pz.cursor.toNat = some b := by
      simp [Memory.readByte_of_record hr, hpos]
    have hd : decode (s.key .tick) = .ok .tickData := State.decode_tick_sending ha hr (by simp [hpos])
    -- The byte just sent moves from `left` to `sent`.
    have hsplit : sent ++ b :: bs = (sent ++ [b]) ++ bs := by simp
    rw [hsplit] at hr hlen ⊢
    have hleft := ih (s := (s.popEvent.emit (escapeByte b)).advanceCursor) (sent := sent ++ [b]) (rest := rest) hlive ha hr
      (by simp [hcur, BitVec.ofNat_add]) hlen (by simp [hinbox])
    rw [List.length_cons, State.run_of_decode hlive hinbox hd (execTickData_live (s := s.popEvent) hlive hb), hleft]
    simp [State.emit, State.advanceCursor, State.popEvent]

/-- Settles O53: the whole run, with nothing sent yet (one position per tick: decision D15). -/
theorem uncancelledRunSendsTheEscapedRecord : Obligations.UncancelledRunSendsTheEscapedRecord := by
  intro s r rest hlive ha hcur hr hlen hinbox
  rw [← escapeRecord_eq]
  exact ⟨State.run_pacer (sent := []) hlive ha hr hcur (by simp; omega) hinbox, escapeRecord_length r⟩

end Sys2Proof.Machine
end

section
/-! The family of the failures: the cache after a failed request, and the machine while a fault is set. -/

namespace Sys2Proof.Machine

/-! ### After a failed request (spec/60_exceptions.md R97, spec/42_pipeline.md R71; decision D10) -/

/-- Of a segment request's four outcomes only the failure returns to `Idle`, and it empties the cache. -/
theorem State.requestSegment_cache_of_idle {s : State} {b : Byte} (h : (s.requestSegment b).state = .idle) :
    (s.requestSegment b).cache = ⟨none, []⟩ := by
  rcases requestSegment_cases s b with ⟨-, e⟩ | ⟨-, -, e⟩ | ⟨-, -, _, -, e⟩ | ⟨-, -, _, -, e⟩ <;> rw [e] at h ⊢
  · cases h
  · cases h
  · cases h
  · rfl

/-- A cache miss asks the backend once for the requested id, whatever the answer. -/
theorem State.requestSegment_queries_of_miss {s : State} {b : Byte} (hclock : s.requestedId b ≠ clockId)
    (hmiss : s.cacheHit (s.requestedId b) = false) :
    (s.requestSegment b).queries = s.queries ++ [s.requestedId b] := by
  rcases requestSegment_cases s b with ⟨hid, -⟩ | ⟨-, hhit, -⟩ | ⟨-, -, _, -, e⟩ | ⟨-, -, _, -, e⟩
  · exact absurd hid hclock
  · exact absurd (hmiss.symm.trans hhit) Bool.false_ne_true
  · rw [e]; rfl
  · rw [e]; rfl

/-- Settles O35: the failed request left the cache empty, so no id is a hit (decision D10). -/
theorem requestAfterAFailureQueriesTheBackend : Obligations.RequestAfterAFailureQueriesTheBackend := by
  intro s t u v b c hlive hx hidle hulive hucache hclock hux
  rw [exec, execSegreqId2_live hlive] at hx
  rw [exec, execSegreqId2_live hulive] at hux
  cases hx
  cases hux
  have hempty : u.cache = ⟨none, []⟩ := hucache.trans (State.requestSegment_cache_of_idle hidle)
  have hmiss : u.cacheHit (u.requestedId c) = false := by rw [State.cacheHit, hempty]; rfl
  exact State.requestSegment_queries_of_miss hclock hmiss

/-! ### While a fault is set (spec/60_exceptions.md R100; decision D26) -/

/-- While a fault is set no event is decoded. -/
theorem State.fetch_faulted {s : State} (h : s.fault ≠ none) : s.fetch = none := by
  obtain ⟨f, hf⟩ := Option.ne_none_iff_exists'.1 h
  rw [State.fetch, hf]

/-- Settles O7: no instruction has an effect, and a step has none to run (the fault as a next state: log entry 17). -/
theorem faultedMachineIgnoresEveryEvent : Obligations.FaultedMachineIgnoresEveryEvent := by
  intro s hfault
  refine ⟨exec_faulted hfault, ?_⟩
  rw [step, State.fetch_faulted hfault]
  rfl

end Sys2Proof.Machine
end

section
/-! The family of reset and of the hazards: the reset values, the RESET event, and the machine while no event is lined up. -/

namespace Sys2Proof.Machine

/-! ### Without an event (spec/70_reset_and_hazards.md R112, R114; log entry 1) -/

/-- With no event lined up nothing is decoded, whether or not a fault is set. -/
theorem State.fetch_of_inbox_nil {s : State} (hempty : s.inbox = []) : s.fetch = none := by
  rw [State.fetch, hempty]
  cases s.fault <;> rfl

/-- Taking an event from an empty inbox changes nothing. -/
theorem State.popEvent_of_inbox_nil {s : State} (hempty : s.inbox = []) : s.popEvent = s := by
  rw [State.popEvent, hempty, List.tail_nil, ← hempty]

/-- Settles O8: no instruction runs and no event is taken, so the next state is the same one. -/
theorem machineHoldsItsStateWithoutEvents : Obligations.MachineHoldsItsStateWithoutEvents := by
  intro s hempty
  rw [step, State.fetch_of_inbox_nil hempty]
  exact congrArg _ (State.popEvent_of_inbox_nil hempty)

/-! ### Reset (spec/70_reset_and_hazards.md R110, R111; decisions D3, D4, D5) -/

/-- Settles O18: each clause reads one field of the record that `State.reset` writes out (R111). -/
theorem resetStateHoldsTheResetValues : Obligations.ResetStateHoldsTheResetValues :=
  ⟨rfl, rfl, rfl, rfl, rfl, rfl, rfl, rfl, rfl, rfl, rfl, rfl⟩

/-- Settles O19: an unfaulted RESET answers `State.resetRegisters`, which writes these registers and no other field (R110). -/
theorem resetWritesEveryRegister : Obligations.ResetWritesEveryRegister :=
  fun _ hlive => execReset_live hlive

end Sys2Proof.Machine
end
